-- ==== Sys2Proof/Word.lean ====
section
/-! DEFINITION. The word types of the block (00_scope.md R10): every value is an unsigned bit string, bit 0 least
significant. -/

namespace Sys2Proof

/-- A byte: 8 bits (00_scope.md R10). -/
abbrev Byte := BitVec 8

/-- A 16-bit field: `scanRateHz` and `timestampHigh` (10_state.md R29, R30). -/
abbrev Half := BitVec 16

/-- An operation word: 40 bits (30_encoding.md R65). -/
abbrev OpWord := BitVec 40

/-- A ring index: 6 bits, 0..63, wrapping mod 64 (10_state.md R20, 41_bus_engine.md R125). -/
abbrev RingIdx := BitVec 6

/-- A byte position inside a register or a record: 2 bits, 0..3 (10_state.md R33, R35). -/
abbrev BytePos := BitVec 2

end Sys2Proof
end

