-- ==== Sys2Proof/Syntax.lean ====
section
/-! DEFINITION. The operations of the block, one constructor per row of spec/opcode_table.json, with the record that
PUSH carries and the encoded forms the decoder reads (30_encoding.md). -/

namespace Sys2Proof

/-- An event record: four bytes, a value and not a reference (10_state.md R16). The block never interprets them
(R17). -/
structure Record where
  type : Byte
  code : Byte
  modMask : Byte
  timestampLow : Byte
deriving DecidableEq, Repr, Inhabited

/-- The operations (30_encoding.md R66) and the register-select rows (R70).

The ten operations are 40-bit words that an agent presents. The seventeen `reg…` rows are 8-bit matches on the pointer,
the second decode level of a byte event (R72): a row is the byte event (a read or a write of one byte) at that register.
A row that covers a range of pointers carries the pointer it matched. -/
inductive Instr where
  /-- BUS_DATA (R84): the host sends byte `b`. -/
  | busData (b : Byte)
  /-- BUS_READ (R85): the host requests a byte. -/
  | busRead
  /-- BUS_STOP (R86): the transaction stops. -/
  | busStop
  /-- BUS_ABORT (R87): the transfer is aborted. -/
  | busAbort
  /-- PUSH (R75): the producer enqueues record `r`. -/
  | push (r : Record)
  /-- SET_MODMASK (R77). -/
  | setModmask (m : Byte)
  /-- SET_CURSOR (R78). -/
  | setCursor (c : Byte)
  /-- SET_TSHIGH (R79). -/
  | setTshigh (t : Half)
  /-- SET_MODVALID (R80). -/
  | setModvalid (v : Bool)
  /-- RESET (R115). -/
  | reset
  /-- REGSEL 0x00 (R90). -/
  | regDeviceId
  /-- REGSEL 0x01 (R91). -/
  | regFwVersion
  /-- REGSEL 0x02 (R92). -/
  | regStatus
  /-- REGSEL 0x03 (R93). -/
  | regModMask
  /-- REGSEL 0x04 (R94). -/
  | regFifoCount
  /-- REGSEL 0x05 (R95). -/
  | regFifoPop
  /-- REGSEL 0x06 (R96). -/
  | regCfgFlags
  /-- REGSEL 0x07 (R97). -/
  | regCursor
  /-- REGSEL 0x08 (R98). -/
  | regLedState
  /-- REGSEL 0x09 (R99). -/
  | regScanRate
  /-- REGSEL 0x0A (R100). -/
  | regClockHigh
  /-- REGSEL 0x0B, unmapped (R101). -/
  | regUnmapped0B
  /-- REGSEL 0x0C/0xFC, unmapped (R101), at pointer `p`. -/
  | regUnmapped0C0F (p : Byte)
  /-- REGSEL 0x10/0xF0, unmapped (R101), at pointer `p`. -/
  | regUnmapped101F (p : Byte)
  /-- REGSEL 0x20/0xE0, unmapped (R101), at pointer `p`. -/
  | regUnmapped203F (p : Byte)
  /-- REGSEL 0x40/0xC0, unmapped (R101), at pointer `p`. -/
  | regUnmapped407F (p : Byte)
  /-- REGSEL 0x80/0x80, unmapped (R101), at pointer `p`. -/
  | regUnmapped80FF (p : Byte)
deriving DecidableEq, Repr

/-- The rows of the register-address decode, in its order (30_encoding.md R70). -/
inductive RegSel where
  | deviceId | fwVersion | status | modMask | fifoCount | fifoPop | cfgFlags | cursor | ledState | scanRate | clockHigh
  | unmapped0B | unmapped0C0F | unmapped101F | unmapped203F | unmapped407F | unmapped80FF
deriving DecidableEq, Repr

/-- The instruction of a register-select row at the pointer `p` that selected it. -/
def RegSel.instr (p : Byte) : RegSel → Instr
  | .deviceId => .regDeviceId
  | .fwVersion => .regFwVersion
  | .status => .regStatus
  | .modMask => .regModMask
  | .fifoCount => .regFifoCount
  | .fifoPop => .regFifoPop
  | .cfgFlags => .regCfgFlags
  | .cursor => .regCursor
  | .ledState => .regLedState
  | .scanRate => .regScanRate
  | .clockHigh => .regClockHigh
  | .unmapped0B => .regUnmapped0B
  | .unmapped0C0F => .regUnmapped0C0F p
  | .unmapped101F => .regUnmapped101F p
  | .unmapped203F => .regUnmapped203F p
  | .unmapped407F => .regUnmapped407F p
  | .unmapped80FF => .regUnmapped80FF p

/-- What a decoder is given, by decode level (30_encoding.md R72): an operation word, or the pointer that selects a
register. -/
inductive Code where
  /-- First level: a 40-bit operation word (R65). -/
  | op (w : OpWord)
  /-- Second level: an 8-bit pointer (R70). -/
  | regSel (p : Byte)
deriving DecidableEq, Repr

/-- The three cases in which an operation word is reserved (30_encoding.md R67). -/
inductive ReservedCase where
  /-- `OP` is 0x4..0x7, 0xD or 0xE. -/
  | reservedOp
  /-- `RSV` is not 0. -/
  | rsvNonzero
  /-- A `PAYLOAD` bit that R69 marks unused is 1. -/
  | unusedPayload
deriving DecidableEq, Repr

/-- What decoding answers: an instruction, or the case in which the word is reserved. -/
inductive Decoded where
  | instr (i : Instr)
  | reserved (why : ReservedCase)
deriving DecidableEq, Repr

/-- The agents that present operations (00_scope.md R6). -/
inductive Agent where
  /-- The bus master, through the engine. -/
  | host
  /-- The poll loop. -/
  | producer
  /-- The reset source. -/
  | resetSource
deriving DecidableEq, Repr

end Sys2Proof
end

