-- ==== Sys2Proof/WellFormed.lean ====
section
/-! DEFINITION. Which terms of `Instr` an encoding spells. Every operand but one kind has a type that admits exactly the
encodable values; a register-select row that covers a range of pointers carries the pointer, which must lie in the row's
match under its mask (30_encoding.md R70). -/

namespace Sys2Proof

/-- The pointer of a range row matches the row: `p & mask = value` (30_encoding.md R70). -/
def pointerMatches (p mask value : Byte) : Bool := p &&& mask == value

/-- Every operand has a value that the instruction's encoding admits. -/
def Instr.wellFormed : Instr → Bool
  | .busData _ | .busRead | .busStop | .busAbort => true
  | .push _ | .setModmask _ | .setCursor _ | .setTshigh _ | .setModvalid _ => true
  | .reset => true
  | .regDeviceId | .regFwVersion | .regStatus | .regModMask | .regFifoCount | .regFifoPop => true
  | .regCfgFlags | .regCursor | .regLedState | .regScanRate | .regClockHigh | .regUnmapped0B => true
  | .regUnmapped0C0F p => pointerMatches p 0xFC 0x0C
  | .regUnmapped101F p => pointerMatches p 0xF0 0x10
  | .regUnmapped203F p => pointerMatches p 0xE0 0x20
  | .regUnmapped407F p => pointerMatches p 0xC0 0x40
  | .regUnmapped80FF p => pointerMatches p 0x80 0x80

/-- The agent that presents an operation (30_encoding.md R66). A register-select row is performed inside the host's byte
events (30_encoding.md R72). -/
def Instr.agent : Instr → Agent
  | .busData _ | .busRead | .busStop | .busAbort => .host
  | .push _ | .setModmask _ | .setCursor _ | .setTshigh _ | .setModvalid _ => .producer
  | .reset => .resetSource
  | .regDeviceId | .regFwVersion | .regStatus | .regModMask | .regFifoCount | .regFifoPop => .host
  | .regCfgFlags | .regCursor | .regLedState | .regScanRate | .regClockHigh | .regUnmapped0B => .host
  | .regUnmapped0C0F _ | .regUnmapped101F _ | .regUnmapped203F _ | .regUnmapped407F _ | .regUnmapped80FF _ => .host

end Sys2Proof
end

