-- ==== Sys2Proof/Decode.lean ====
section
/-! DEFINITION. The two decode levels of 30_encoding.md R72, total on every word, and the encoder written from the same
tables. -/

namespace Sys2Proof

/-! ## Fields of the operation word -/

/-- `OP` = bits [39:36] (30_encoding.md R65). -/
def opField (w : OpWord) : BitVec 4 := w.extractLsb' 36 4

/-- `RSV` = bits [35:32] (30_encoding.md R65). -/
def rsvField (w : OpWord) : BitVec 4 := w.extractLsb' 32 4

/-- `PAYLOAD` = bits [31:0] (30_encoding.md R65). -/
def payloadField (w : OpWord) : BitVec 32 := w.extractLsb' 0 32

/-- The record of a PUSH payload: `r.byte[k] = PAYLOAD[8k+7:8k]` (30_encoding.md R69). -/
def recordOfPayload (p : BitVec 32) : Record where
  type := p.extractLsb' 0 8
  code := p.extractLsb' 8 8
  modMask := p.extractLsb' 16 8
  timestampLow := p.extractLsb' 24 8

/-- The payload of a PUSH: byte k of the record at bits [8k+7:8k] (30_encoding.md R69). -/
def payloadOfRecord (r : Record) : BitVec 32 := r.timestampLow ++ r.modMask ++ r.code ++ r.type

/-- The instruction `i`, unless a payload bit at or above `used` is 1: those bits are unused and must be 0
(30_encoding.md R67, R69). -/
def requireUnusedZero (p : BitVec 32) (used : Nat) (i : Instr) : Decoded :=
  if p >>> used = 0 then .instr i else .reserved .unusedPayload

/-! ## Decoding -/

/-- First level: the operation an operation word spells, or the case in which it is reserved (30_encoding.md R65 to
R69). -/
def decodeOp (w : OpWord) : Decoded :=
  if rsvField w = 0 then
    let p := payloadField w
    match (opField w).toNat with
    | 0x0 => requireUnusedZero p 8 (.busData (p.extractLsb' 0 8))
    | 0x1 => requireUnusedZero p 0 .busRead
    | 0x2 => requireUnusedZero p 0 .busStop
    | 0x3 => requireUnusedZero p 0 .busAbort
    | 0x8 => .instr (.push (recordOfPayload p))
    | 0x9 => requireUnusedZero p 8 (.setModmask (p.extractLsb' 0 8))
    | 0xA => requireUnusedZero p 8 (.setCursor (p.extractLsb' 0 8))
    | 0xB => requireUnusedZero p 16 (.setTshigh (p.extractLsb' 0 16))
    | 0xC => requireUnusedZero p 1 (.setModvalid (p.getLsbD 0))
    | 0xF => requireUnusedZero p 0 .reset
    | _ => .reserved .reservedOp
  else .reserved .rsvNonzero

/-- Second level: the row of R70 that pointer `p` matches. The rows cover all 256 pointers, so every pointer selects
one. -/
def selectReg (p : Byte) : RegSel :=
  if p = 0x00 then .deviceId
  else if p = 0x01 then .fwVersion
  else if p = 0x02 then .status
  else if p = 0x03 then .modMask
  else if p = 0x04 then .fifoCount
  else if p = 0x05 then .fifoPop
  else if p = 0x06 then .cfgFlags
  else if p = 0x07 then .cursor
  else if p = 0x08 then .ledState
  else if p = 0x09 then .scanRate
  else if p = 0x0A then .clockHigh
  else if p = 0x0B then .unmapped0B
  else if p &&& 0xFC = 0x0C then .unmapped0C0F
  else if p &&& 0xF0 = 0x10 then .unmapped101F
  else if p &&& 0xE0 = 0x20 then .unmapped203F
  else if p &&& 0xC0 = 0x40 then .unmapped407F
  else .unmapped80FF

/-- Second level: the register-select instruction of pointer `p` (30_encoding.md R70). -/
def decodeReg (p : Byte) : Instr := (selectReg p).instr p

/-- The decoder, total on every operation word and every pointer (30_encoding.md R72). -/
def decode : Code → Decoded
  | .op w => decodeOp w
  | .regSel p => .instr (decodeReg p)

/-! ## Encoding -/

/-- An operation word from its `OP` and `PAYLOAD`, with `RSV` = 0 (30_encoding.md R65). -/
def opWord (op : BitVec 4) (payload : BitVec 32) : OpWord := op ++ (0 : BitVec 4) ++ payload

/-- The words of an instruction: the operation word of an operation (30_encoding.md R66, R69, R73), the pointer of a
register-select row (R70). -/
def encode : Instr → Code
  | .busData b => .op (opWord 0x0 (b.setWidth 32))
  | .busRead => .op (opWord 0x1 0)
  | .busStop => .op (opWord 0x2 0)
  | .busAbort => .op (opWord 0x3 0)
  | .push r => .op (opWord 0x8 (payloadOfRecord r))
  | .setModmask m => .op (opWord 0x9 (m.setWidth 32))
  | .setCursor c => .op (opWord 0xA (c.setWidth 32))
  | .setTshigh t => .op (opWord 0xB (t.setWidth 32))
  | .setModvalid v => .op (opWord 0xC (if v then 1 else 0))
  | .reset => .op (opWord 0xF 0)
  | .regDeviceId => .regSel 0x00
  | .regFwVersion => .regSel 0x01
  | .regStatus => .regSel 0x02
  | .regModMask => .regSel 0x03
  | .regFifoCount => .regSel 0x04
  | .regFifoPop => .regSel 0x05
  | .regCfgFlags => .regSel 0x06
  | .regCursor => .regSel 0x07
  | .regLedState => .regSel 0x08
  | .regScanRate => .regSel 0x09
  | .regClockHigh => .regSel 0x0A
  | .regUnmapped0B => .regSel 0x0B
  | .regUnmapped0C0F p => .regSel p
  | .regUnmapped101F p => .regSel p
  | .regUnmapped203F p => .regSel p
  | .regUnmapped407F p => .regSel p
  | .regUnmapped80FF p => .regSel p

/-! ## The opcode table's words -/

/-- The code that the opcode table's bits spell: a row of at most 8 bits is a REGSEL row and `w` a pointer; a longer one
(at most 40 bits) is an operation word, its bits above `nbits` zero (30_encoding.md R65, R70; log 12). -/
def codeOfTableWord (nbits w : Nat) : Option Code :=
  if nbits ≤ 8 then
    if w < 2 ^ 8 then some (.regSel (BitVec.ofNat 8 w)) else none
  else if nbits ≤ 40 then
    if w < 2 ^ 40 then some (.op (BitVec.ofNat 40 w)) else none
  else none

/-- The instruction the decoder reads from an opcode-table word; none where it refuses. -/
def decodeTableWord (nbits w : Nat) : Option Instr :=
  match codeOfTableWord nbits w with
  | none => none
  | some c =>
    match decode c with
    | .instr i => some i
    | .reserved _ => none

end Sys2Proof
end

