-- ==== Sys2Proof/Config.lean ====
section
/-! DEFINITION. The parameters of 00_scope.md R9 and the free values. An OPEN parameter is an opaque constant with no
body: nothing in Lean can evaluate it, so a statement holds for every value of it, as R9 asks. -/

namespace Sys2Proof

/-- A permutation π of {0, 1, 2}, written by its images: `p102` sends 0 to 1, 1 to 0 and 2 to 2 (00_scope.md R9,
`LED_CALLBACK_ORDER`). The six constructors are the six permutations. -/
inductive LedOrder where
  | p012 | p021 | p102 | p120 | p201 | p210
deriving DecidableEq, Repr, Inhabited

/-- π(j). -/
def LedOrder.image : LedOrder → Fin 3 → Fin 3
  | .p012, j => #v[0, 1, 2][j]
  | .p021, j => #v[0, 2, 1][j]
  | .p102, j => #v[1, 0, 2][j]
  | .p120, j => #v[1, 2, 0][j]
  | .p201, j => #v[2, 0, 1][j]
  | .p210, j => #v[2, 1, 0][j]

/-- `FIFO_CAPACITY` = 64 for this hardware (00_scope.md R9, D30). -/
abbrev Config.fifoCapacity : Nat := 64

/-- `CLOCK_HIGH_MSB_FIRST` = true (00_scope.md R9, D23). -/
def Config.clockHighMsbFirst : Bool := true

/-- `DEVICE_ID`, OPEN (00_scope.md R9): the byte served by register 0x00. -/
opaque Config.deviceId : Byte

/-- `FW_MAJOR`, OPEN (00_scope.md R9). -/
opaque Config.fwMajor : Byte

/-- `FW_MINOR`, OPEN (00_scope.md R9). -/
opaque Config.fwMinor : Byte

/-- `SCAN_RATE_RESET`, OPEN (00_scope.md R9): the reset value of `scanRateHz`. -/
opaque Config.scanRateReset : Half

/-- `INT_PRESENT`, OPEN (00_scope.md R9): whether the interrupt line exists. -/
opaque Config.intPresent : Bool

/-- `LED_CALLBACK_ORDER`, OPEN (00_scope.md R9): the permutation π of 10_state.md R41. -/
opaque Config.ledCallbackOrder : LedOrder

/-- FREE VALUE (log 1): the contents of slot `i` at reset, unspecified by 10_state.md R43 and U1. -/
opaque Config.resetSlot : Nat → Record

/-- FREE VALUE (log 1): `cacheRecord` at reset, unspecified by 10_state.md R43 and U2. -/
opaque Config.resetCacheRecord : Record

/-- FREE VALUE (log 6): the byte read at pointer `p` and a sub-index that is not below `width(p)`. No reachable state has
one (10_state.md R44), and the spec gives no byte there. -/
opaque Config.byteBeyondWidth (p : Byte) (s : BytePos) : Byte

end Sys2Proof
end

