-- ==== Sys2Proof/Machine/State.lean ====
section
/-! DEFINITION. The state of the block: the ring buffer, the register bank and the engine state of 10_state.md (R15 names
the three groups), and the model's own fields for what the agents present and what the last operation gave back. Every
field is plain data. -/

namespace Sys2Proof.Machine

open Sys2Proof

/-- The ring buffer (10_state.md R19 to R21). `count` and `empty` are derived, never stored (R22). -/
structure Ring where
  /-- The slot store: 64 records (R19). -/
  slots : Vector Record 64
  /-- The slot the next successful PUSH writes (R20). -/
  head : RingIdx
  /-- The slot the next successful RingPop reads (R20). -/
  tail : RingIdx
  /-- 1 exactly when the ring holds 64 records (R21). -/
  full : Bool
deriving DecidableEq, Repr

/-- The register bank (10_state.md R23 to R30). -/
structure Bank where
  /-- Status bit 7, ERROR (R23). -/
  errorSticky : Bool
  /-- Status bit 2, MOD_VALID (R24). -/
  modValid : Bool
  /-- The modifier mask (R25). -/
  modMask : Byte
  /-- The configuration flags, opaque to the block (R26). -/
  cfgFlags : Byte
  /-- The cursor bitmask, all eight bits kept (R27). -/
  cursorState : Byte
  /-- The three LED bytes (R28). -/
  ledState : Vector Byte 3
  /-- The scan rate; only its low byte is on the wire (R29). -/
  scanRateHz : Half
  /-- The upper 16 bits of the producer's clock (R30). -/
  timestampHigh : Half
deriving DecidableEq, Repr

/-- The engine state (10_state.md R32 to R35). -/
structure Engine where
  /-- The register pointer (R32). -/
  ptr : Byte
  /-- The byte within the pointed register (R33). -/
  subIndex : BytePos
  /-- Whether the next BUS_DATA byte is data (R34). -/
  pointerValid : Bool
  /-- The cached popped record (R35). -/
  cacheRecord : Record
  /-- Whether the cache holds a record (R35). -/
  cacheValid : Bool
  /-- The next cached byte to serve (R35). -/
  cacheOffset : BytePos
deriving DecidableEq, Repr

/-- A byte event (00_scope.md section 8): one byte out to the host, or one byte in from it. -/
inductive ByteEvent where
  /-- The host reads a byte. -/
  | read
  /-- The host writes byte `b`. -/
  | write (b : Byte)
deriving DecidableEq, Repr

/-- The output of one operation (00_scope.md R7, R13). -/
inductive Output where
  /-- No output. -/
  | nothing
  /-- The byte a BUS_READ serves. -/
  | served (b : Byte)
  /-- PUSH returned OK. -/
  | pushOk
  /-- PUSH returned FAIL. -/
  | pushFail
  /-- `LedUpdate(x, y, z)` (10_state.md R41). -/
  | ledUpdate (x y z : Byte)
deriving DecidableEq, Repr

/-- The state of the block, with three fields of the model's own: `event`, `input` and `out`. -/
structure State where
  /-- The ring buffer. -/
  ring : Ring
  /-- The register bank. -/
  bank : Bank
  /-- The engine state. -/
  engine : Engine
  /-- MODEL (log 4): the byte event being served, none between operations. -/
  event : Option ByteEvent
  /-- MODEL (log 3): the operation words presented and not yet performed, oldest first. -/
  input : List OpWord
  /-- MODEL (log 5): the output of the operation just performed. -/
  out : Output
deriving DecidableEq, Repr

/-- The block has no fault: it raises no exception, trap or fault, and no state is stuck (60_exceptions.md R102, R103).
No constructor, so no step can fault; safe, since the spec says the hardware has none either. -/
inductive Fault where
deriving DecidableEq, Repr

/-- Why a step has no meaning. -/
inductive Refusal where
  /-- Raised by an arm of `exec` for an instruction that has no meaning in the model. No arm raises it. Safe: nothing can
  be proved of a run that meets it. -/
  | notModelled (mnemonic : String)
  /-- `refuse(ReservedEncoding)`: raised by `step` for a reserved operation word, in one of the three cases of
  30_encoding.md R67. Safe (D28): the word spells no operation, and the block never sees one. -/
  | reservedEncoding (why : ReservedCase)
deriving DecidableEq, Repr

/-- The ring at reset: empty, slots unspecified (10_state.md R43; log 1). -/
def Ring.reset : Ring where
  slots := Vector.ofFn fun i => Config.resetSlot i.val
  head := 0
  tail := 0
  full := false

/-- The register bank at reset (10_state.md R43). -/
def Bank.reset : Bank where
  errorSticky := false
  modValid := false
  modMask := 0x00
  cfgFlags := 0x00
  cursorState := 0x00
  ledState := #v[0x00, 0x00, 0x00]
  scanRateHz := Config.scanRateReset
  timestampHigh := 0x0000

/-- The engine state at reset (10_state.md R43; `cacheRecord` unspecified, log 1). -/
def Engine.reset : Engine where
  ptr := 0x00
  subIndex := 0
  pointerValid := false
  cacheRecord := Config.resetCacheRecord
  cacheValid := false
  cacheOffset := 0

/-- The machine right after reset or power-up (10_state.md R43, 70_reset_and_hazards.md R116), with nothing presented
and no output yet. -/
def State.reset : State where
  ring := Ring.reset
  bank := Bank.reset
  engine := Engine.reset
  event := none
  input := []
  out := .nothing

end Sys2Proof.Machine
end

