-- ==== Sys2Proof/Machine/Flags.lean ====
section
/-! DEFINITION. The values computed from the state and never stored: the ring's count and emptiness (10_state.md R22),
the status byte (R38), the interrupt line (R40), and the producer's read ports (40_fifo.md R81). -/

namespace Sys2Proof.Machine

open Sys2Proof

/-- `count`: the number of records in the ring, 0..64 (10_state.md R22). -/
def Ring.count (r : Ring) : Nat :=
  if r.full then Config.fifoCapacity else (r.head - r.tail).toNat

/-- `empty`: not full, and `head` = `tail` (10_state.md R22). -/
def Ring.empty (r : Ring) : Bool := !r.full && r.head == r.tail

/-- A status flag at bit `n` of a byte (10_state.md R38). -/
def statusBit (flag : Bool) (n : Nat) : Byte := (if flag then 1 else 0) <<< n

/-- `StatusByte(S)`: bit 0 FIFO_EMPTY, bit 1 FIFO_FULL, bit 2 MOD_VALID, bit 7 ERROR, bits 3..6 zero (10_state.md
R38). -/
def statusByte (s : State) : Byte :=
  statusBit s.ring.empty 0 ||| statusBit s.ring.full 1 ||| statusBit s.bank.modValid 2 |||
    statusBit s.bank.errorSticky 7

/-- `INT_N(S)`, active low: false (0, asserted) exactly when the line exists and the ring holds a record (10_state.md
R40). -/
def intN (s : State) : Bool := !(Config.intPresent && !s.ring.empty)

/-- `zext_8(min(count, 64))`, the byte of FIFO_COUNT (42_register_file.md R94). -/
def fifoCountByte (s : State) : Byte := BitVec.ofNat 8 (min s.ring.count Config.fifoCapacity)

/-! ## The producer's read ports (40_fifo.md R81): no side effect, and not operations -/

/-- Port `cfgFlags`. -/
def portCfgFlags (s : State) : Byte := s.bank.cfgFlags

/-- Port `scanRateHz`: all 16 bits, unclamped. -/
def portScanRateHz (s : State) : Half := s.bank.scanRateHz

/-- Port `ledState`. -/
def portLedState (s : State) : Vector Byte 3 := s.bank.ledState

/-- Port `status`. -/
def portStatus (s : State) : Byte := statusByte s

/-- Port `count`. -/
def portCount (s : State) : Nat := s.ring.count

end Sys2Proof.Machine
end

