-- ==== Sys2Proof/Machine/Operands.lean ====
section
/-! DEFINITION. The operand forms: the register width, the byte of a record or of a multi-byte register that a byte
position selects, the LED callback's triple. The block has one addressing mode, the location `(ptr, subIndex)`
(41_bus_engine.md R127). -/

namespace Sys2Proof.Machine

open Sys2Proof

/-- The register width function (10_state.md R39). -/
def width (p : Byte) : Nat :=
  if p = 0x01 then 2
  else if p = 0x05 then 4
  else if p = 0x08 then 3
  else if p = 0x0A then 2
  else 1

/-- `r.byte[k]`: 0 type, 1 code, 2 modMask, 3 timestampLow (10_state.md R16, 20_memory.md R47). -/
def recordByte (r : Record) (k : BytePos) : Byte :=
  if k = 0 then r.type
  else if k = 1 then r.code
  else if k = 2 then r.modMask
  else r.timestampLow

/-- The byte at sub-index `s` of the register at `p` whose bytes on the wire are `bytes`, in sub-index order (20_memory.md
R47). At or past the end there is no such location (R46), and the byte is free (log 6). -/
def wireByte (p : Byte) (bytes : List Byte) (s : BytePos) : Byte :=
  bytes.getD s.toNat (Config.byteBeyondWidth p s)

/-- The bytes of FW_VERSION: major, then minor (20_memory.md R47). -/
def fwVersionBytes : List Byte := [Config.fwMajor, Config.fwMinor]

/-- The bytes of LED_STATE (20_memory.md R47). -/
def ledStateBytes (b : Bank) : List Byte := [b.ledState[0], b.ledState[1], b.ledState[2]]

/-- The bytes of CLOCK_HIGH, high byte first (20_memory.md R47, `CLOCK_HIGH_MSB_FIRST`). -/
def clockHighBytes (b : Bank) : List Byte :=
  if Config.clockHighMsbFirst then [b.timestampHigh.extractLsb' 8 8, b.timestampHigh.extractLsb' 0 8]
  else [b.timestampHigh.extractLsb' 0 8, b.timestampHigh.extractLsb' 8 8]

/-- `ledState[s] <- b`; a position that names no LED byte stores nothing (log 6). -/
def setLed (led : Vector Byte 3) (s : BytePos) (b : Byte) : Vector Byte 3 :=
  if h : s.toNat < 3 then led.set s.toNat b h else led

/-- The triple of LedUpdate: `(ledState[π(0)], ledState[π(1)], ledState[π(2)])` (10_state.md R41). -/
def ledTriple (led : Vector Byte 3) : Output :=
  .ledUpdate led[Config.ledCallbackOrder.image 0] led[Config.ledCallbackOrder.image 1]
    led[Config.ledCallbackOrder.image 2]

/-- The record the engine makes when the ring is empty: type 0, code 0, the live mask, timestamp 0 (42_register_file.md
R95). -/
def nopRecord (modMask : Byte) : Record where
  type := 0x00
  code := 0x00
  modMask := modMask
  timestampLow := 0x00

end Sys2Proof.Machine
end

