-- ==== Sys2Proof/Machine/Ops.lean ====
section
/-! DEFINITION. The operations that several meanings share: the ring primitives (40_fifo.md R75, R76), the pointer
operations of the engine (41_bus_engine.md R83 to R86), the popped-record cache (42_register_file.md R95), and the byte
event at a register (R72, R84, R85). The block takes no exception and returns from none (60_exceptions.md R102, R108),
so there is no entry or return operation. -/

namespace Sys2Proof.Machine

open Sys2Proof

/-- What a step or a meaning answers. -/
abbrev Result := Host.Outcome State Fault Refusal

/-! ## The ring -/

/-- The slot that an index names (10_state.md R20). -/
def slotOf (i : RingIdx) : Fin 64 := i.toFin

/-- `PUSH` on a ring that is not full, in its fixed order (40_fifo.md R75, 20_memory.md R60): write the slot, advance
`head`, publish fullness. -/
def Ring.store (r : Ring) (rec : Record) : Ring :=
  let r1 := { r with slots := r.slots.set (slotOf r.head).val rec (slotOf r.head).isLt }
  let r2 := { r1 with head := r1.head + 1 }
  if r2.head = r2.tail then { r2 with full := true } else r2

/-- The record at `tail`, the oldest one (40_fifo.md R76). -/
def Ring.oldest (r : Ring) : Record := r.slots[slotOf r.tail]

/-- `RingPop` on a ring that is not empty, in its fixed order (40_fifo.md R76, 20_memory.md R60): the slot is read by
`Ring.oldest`; advance `tail`, publish non-fullness. -/
def Ring.drop (r : Ring) : Ring :=
  let r1 := { r with tail := r.tail + 1 }
  { r1 with full := false }

/-- `RingPop()`: NONE on an empty ring, and nothing changes; otherwise the oldest record and the ring without it
(40_fifo.md R76). -/
def Ring.pop (r : Ring) : Option (Record × Ring) :=
  if r.empty then none else some (r.oldest, r.drop)

/-! ## The engine -/

/-- `Advance()` (41_bus_engine.md R83): the next byte of the register, or byte 0 of the next address (mod 256). -/
def Engine.advance (e : Engine) : Engine :=
  if e.subIndex.toNat + 1 < width e.ptr then { e with subIndex := e.subIndex + 1 }
  else { e with subIndex := 0, ptr := e.ptr + 1 }

/-- A pointer byte is latched (41_bus_engine.md R84, pointer form). -/
def Engine.latch (e : Engine) (p : Byte) : Engine :=
  { e with ptr := p, subIndex := 0, pointerValid := true }

/-- The transaction ends (41_bus_engine.md R86): pointer-valid, the cache and the sub-index are cleared; `ptr` is
kept. -/
def Engine.endTransaction (e : Engine) : Engine :=
  { e with pointerValid := false, cacheValid := false, cacheOffset := 0, subIndex := 0 }

/-- The cache is loaded with `rec` (42_register_file.md R95). -/
def Engine.loadCache (e : Engine) (rec : Record) : Engine :=
  { e with cacheRecord := rec, cacheValid := true, cacheOffset := 0 }

/-- The cache moves past the byte just served, and is invalid after its fourth (42_register_file.md R95). -/
def Engine.passCached (e : Engine) : Engine :=
  if e.cacheOffset = 3 then { e with cacheValid := false, cacheOffset := 0 }
  else { e with cacheOffset := e.cacheOffset + 1 }

/-- The cached byte that a read of 0x05 serves (42_register_file.md R95). -/
def Engine.cachedByte (e : Engine) : Byte := recordByte e.cacheRecord e.cacheOffset

/-- The cache is made valid: with the record it holds; else with the oldest record of the ring, popped; else with a NOP
record (42_register_file.md R95). -/
def State.fillCache (s : State) : State :=
  if s.engine.cacheValid then s
  else
    match s.ring.pop with
    | some (rec, ring) => { s with ring := ring, engine := s.engine.loadCache rec }
    | none => { s with engine := s.engine.loadCache (nopRecord s.bank.modMask) }

/-! ## The byte event at a register -/

/-- A read form: the byte `RegRead` gives and the state it leaves, before `Advance()`. -/
abbrev ReadForm := State → Byte × State

/-- A write form: the output `RegWrite` emits and the state it leaves, before `Advance()`. -/
abbrev WriteForm := Byte → State → Output × State

/-- A read with no side effect (20_memory.md R53): the byte is a function of the state. -/
def plainRead (byte : State → Byte) : ReadForm := fun s => (byte s, s)

/-- A write that is accepted and discarded (20_memory.md R54, 30_encoding.md R71). -/
def discardWrite : WriteForm := fun _ s => (.nothing, s)

/-- A write that stores into the register bank and emits nothing (20_memory.md R54). -/
def bankWrite (store : Byte → Bank → Bank) : WriteForm :=
  fun b s => (.nothing, { s with bank := store b s.bank })

/-- The byte event is over: its output stands, and the pointer advances, alike for a read and a write (41_bus_engine.md
R83 to R85). -/
def State.closeEvent (s : State) (out : Output) : State :=
  { s with engine := s.engine.advance, event := none, out := out }

/-- The byte event at a register with read form `rd` and write form `wr`: `RegRead` or `RegWrite`, then `Advance()`
(41_bus_engine.md R84 data form, R85). With no byte event under way the register is not accessed (log 4). -/
def byteEventAt (rd : ReadForm) (wr : WriteForm) (s : State) : Result :=
  match s.event with
  | none => .next { s with out := .nothing }
  | some .read => .next ((rd s).2.closeEvent (.served (rd s).1))
  | some (.write b) => .next ((wr b s).2.closeEvent (wr b s).1)

end Sys2Proof.Machine
end

