-- ==== Sys2Proof/Machine/Registers.lean ====
section
/-! DEFINITION. The register-select family: `RegRead(p, s)` and `RegWrite(p, s, b)` of each register (42_register_file.md
R90 to R101) and the meaning of each REGSEL row, the byte event at its register. -/

namespace Sys2Proof.Machine

open Sys2Proof

/-! ## Read and write forms -/

/-- `RegRead(0x00, 0) = DEVICE_ID` (R90). -/
def readDeviceId : ReadForm := plainRead fun _ => Config.deviceId

/-- `RegRead(0x01, s)`: major, then minor (R91). -/
def readFwVersion : ReadForm := plainRead fun s => wireByte 0x01 fwVersionBytes s.engine.subIndex

/-- `RegRead(0x02, 0) = StatusByte(S)`, computed at this read (R92). -/
def readStatus : ReadForm := plainRead statusByte

/-- `RegRead(0x03, 0) = modMask` (R93). -/
def readModMask : ReadForm := plainRead fun s => s.bank.modMask

/-- `RegWrite(0x03, 0, b)`: the modifier-mask override (R93). -/
def writeModMask : WriteForm := bankWrite fun b bank => { bank with modMask := b }

/-- `RegRead(0x04, 0)`: the capped count (R94). -/
def readFifoCount : ReadForm := plainRead fifoCountByte

/-- `RegRead(0x05, s)`: the next byte of the cached record; the first read pops. The sub-index is ignored (R95). -/
def readFifoPop : ReadForm := fun s =>
  let filled := s.fillCache
  (filled.engine.cachedByte, { filled with engine := filled.engine.passCached })

/-- `RegRead(0x06, 0) = cfgFlags` (R96). -/
def readCfgFlags : ReadForm := plainRead fun s => s.bank.cfgFlags

/-- `RegWrite(0x06, 0, b)` (R96). -/
def writeCfgFlags : WriteForm := bankWrite fun b bank => { bank with cfgFlags := b }

/-- `RegRead(0x07, 0) = cursorState` (R97). -/
def readCursor : ReadForm := plainRead fun s => s.bank.cursorState

/-- `RegRead(0x08, s) = ledState[s]` (R98). -/
def readLedState : ReadForm := plainRead fun s => wireByte 0x08 (ledStateBytes s.bank) s.engine.subIndex

/-- `RegWrite(0x08, s, b)`: the byte is stored; the third byte emits LedUpdate, after the write (R98). -/
def writeLedState : WriteForm := fun b s =>
  let led := setLed s.bank.ledState s.engine.subIndex b
  (if s.engine.subIndex = 2 then ledTriple led else .nothing, { s with bank := { s.bank with ledState := led } })

/-- `RegRead(0x09, 0) = scanRateHz[7:0]` (R99). -/
def readScanRate : ReadForm := plainRead fun s => s.bank.scanRateHz.extractLsb' 0 8

/-- `RegWrite(0x09, 0, b)`: `scanRateHz <- zext_16(b)` (R99). -/
def writeScanRate : WriteForm := bankWrite fun b bank => { bank with scanRateHz := b.setWidth 16 }

/-- `RegRead(0x0A, s)`: the byte of the current `timestampHigh`, high byte first, nothing latched (R100, 20_memory.md
R49). -/
def readClockHigh : ReadForm := plainRead fun s => wireByte 0x0A (clockHighBytes s.bank) s.engine.subIndex

/-- `RegRead(p, 0) = 0x00` at an unmapped address (R101). -/
def readUnmapped : ReadForm := plainRead fun _ => 0x00

/-! ## The rows -/

/-- REGSEL 0x00, DEVICE_ID, read-only (R90). -/
def execRegDeviceId (s : State) : Result := byteEventAt readDeviceId discardWrite s

/-- REGSEL 0x01, FW_VERSION, read-only (R91). -/
def execRegFwVersion (s : State) : Result := byteEventAt readFwVersion discardWrite s

/-- REGSEL 0x02, STATUS, read-only (R92). -/
def execRegStatus (s : State) : Result := byteEventAt readStatus discardWrite s

/-- REGSEL 0x03, MOD_MASK (R93). -/
def execRegModMask (s : State) : Result := byteEventAt readModMask writeModMask s

/-- REGSEL 0x04, FIFO_COUNT, read-only (R94). -/
def execRegFifoCount (s : State) : Result := byteEventAt readFifoCount discardWrite s

/-- REGSEL 0x05, FIFO_POP: a write neither pops nor touches the cache (R95). -/
def execRegFifoPop (s : State) : Result := byteEventAt readFifoPop discardWrite s

/-- REGSEL 0x06, CFG_FLAGS (R96). -/
def execRegCfgFlags (s : State) : Result := byteEventAt readCfgFlags writeCfgFlags s

/-- REGSEL 0x07, CURSOR, read-only over the bus (R97). -/
def execRegCursor (s : State) : Result := byteEventAt readCursor discardWrite s

/-- REGSEL 0x08, LED_STATE (R98). -/
def execRegLedState (s : State) : Result := byteEventAt readLedState writeLedState s

/-- REGSEL 0x09, SCAN_RATE (R99). -/
def execRegScanRate (s : State) : Result := byteEventAt readScanRate writeScanRate s

/-- REGSEL 0x0A, CLOCK_HIGH, read-only (R100). -/
def execRegClockHigh (s : State) : Result := byteEventAt readClockHigh discardWrite s

/-- REGSEL 0x0B, unmapped (R101). -/
def execRegUnmapped0B (s : State) : Result := byteEventAt readUnmapped discardWrite s

/-- REGSEL 0x0C..0x0F, unmapped (R101). -/
def execRegUnmapped0C0F (_p : Byte) (s : State) : Result := byteEventAt readUnmapped discardWrite s

/-- REGSEL 0x10..0x1F, unmapped (R101). -/
def execRegUnmapped101F (_p : Byte) (s : State) : Result := byteEventAt readUnmapped discardWrite s

/-- REGSEL 0x20..0x3F, unmapped (R101). -/
def execRegUnmapped203F (_p : Byte) (s : State) : Result := byteEventAt readUnmapped discardWrite s

/-- REGSEL 0x40..0x7F, unmapped (R101). -/
def execRegUnmapped407F (_p : Byte) (s : State) : Result := byteEventAt readUnmapped discardWrite s

/-- REGSEL 0x80..0xFF, unmapped (R101). -/
def execRegUnmapped80FF (_p : Byte) (s : State) : Result := byteEventAt readUnmapped discardWrite s

end Sys2Proof.Machine
end

