-- ==== Sys2Proof/Machine/Bus.lean ====
section
/-! DEFINITION. The bus family: the engine's four operations (41_bus_engine.md R84 to R87). -/

namespace Sys2Proof.Machine

open Sys2Proof

/-- The meaning of the register-select row that `ptr` matches: the second decode level of a byte event (30_encoding.md
R70, R72). -/
def pointedRow (s : State) : Result :=
  match selectReg s.engine.ptr with
  | .deviceId => execRegDeviceId s
  | .fwVersion => execRegFwVersion s
  | .status => execRegStatus s
  | .modMask => execRegModMask s
  | .fifoCount => execRegFifoCount s
  | .fifoPop => execRegFifoPop s
  | .cfgFlags => execRegCfgFlags s
  | .cursor => execRegCursor s
  | .ledState => execRegLedState s
  | .scanRate => execRegScanRate s
  | .clockHigh => execRegClockHigh s
  | .unmapped0B => execRegUnmapped0B s
  | .unmapped0C0F => execRegUnmapped0C0F s.engine.ptr s
  | .unmapped101F => execRegUnmapped101F s.engine.ptr s
  | .unmapped203F => execRegUnmapped203F s.engine.ptr s
  | .unmapped407F => execRegUnmapped407F s.engine.ptr s
  | .unmapped80FF => execRegUnmapped80FF s.engine.ptr s

/-- A byte event at the pointed register, as one atomic operation (41_bus_engine.md R84, R85, 00_scope.md R8). -/
def byteEvent (ev : ByteEvent) (s : State) : Result := pointedRow { s with event := some ev }

/-- The bus transaction ends (41_bus_engine.md R86): the ring, the bank and `ptr` are kept, and nothing is emitted. -/
def stopTransaction (s : State) : State :=
  { s with engine := s.engine.endTransaction, event := none, out := .nothing }

/-- BUS_DATA (R84): a pointer byte when no pointer is latched, otherwise a write to the pointed register. -/
def execBusData (b : Byte) (s : State) : Result :=
  if s.engine.pointerValid then byteEvent (.write b) s
  else .next { s with engine := s.engine.latch b, event := none, out := .nothing }

/-- BUS_READ (R85): serve the byte at the pointed register; `pointerValid` is neither read nor written (D9). -/
def execBusRead (s : State) : Result := byteEvent .read s

/-- BUS_STOP (R86). -/
def execBusStop (s : State) : Result := .next (stopTransaction s)

/-- BUS_ABORT (R87): exactly the effect of BUS_STOP (D11). -/
def execBusAbort (s : State) : Result := .next (stopTransaction s)

end Sys2Proof.Machine
end

