-- ==== Sys2Proof/Machine/Producer.lean ====
section
/-! DEFINITION. The producer family (40_fifo.md R75, R77 to R80), and RESET is in System.lean. No producer operation reads
or writes the engine state (10_state.md R36). -/

namespace Sys2Proof.Machine

open Sys2Proof

/-- A producer write of bank fields, with no result (40_fifo.md R77 to R80). -/
def producerWrite (store : Bank → Bank) (s : State) : Result :=
  .next { s with bank := store s.bank, out := .nothing }

/-- PUSH (R75): on a full ring nothing is stored, ERROR is set and the result is FAIL; otherwise the record is stored and
the result is OK. -/
def execPush (r : Record) (s : State) : Result :=
  if s.ring.full then .next { s with bank := { s.bank with errorSticky := true }, out := .pushFail }
  else .next { s with ring := s.ring.store r, out := .pushOk }

/-- SET_MODMASK (R77): `modMask <- m`. -/
def execSetModmask (m : Byte) (s : State) : Result := producerWrite (fun b => { b with modMask := m }) s

/-- SET_CURSOR (R78): `cursorState <- c`, all eight bits. -/
def execSetCursor (c : Byte) (s : State) : Result := producerWrite (fun b => { b with cursorState := c }) s

/-- SET_TSHIGH (R79): `timestampHigh <- t`, all 16 bits at once. -/
def execSetTshigh (t : Half) (s : State) : Result := producerWrite (fun b => { b with timestampHigh := t }) s

/-- SET_MODVALID (R80): `modValid <- v`. -/
def execSetModvalid (v : Bool) (s : State) : Result := producerWrite (fun b => { b with modValid := v }) s

end Sys2Proof.Machine
end

