-- ==== Sys2Proof/Machine/System.lean ====
section
/-! DEFINITION. RESET (70_reset_and_hazards.md R115). -/

namespace Sys2Proof.Machine

open Sys2Proof

/-- RESET (R115): `S <- ResetState`; no LedUpdate, no result. The operations still to come are the agents', not the
block's, and stay presented (log 3). -/
def execReset (s : State) : Result := .next { State.reset with input := s.input }

end Sys2Proof.Machine
end

