-- ==== Sys2Proof/Machine/Dispatch.lean ====
section
/-! DEFINITION. One arm per constructor of Instr: the operations of 30_encoding.md R66, then the rows of R70. -/

namespace Sys2Proof.Machine

open Sys2Proof

def exec (i : Instr) (s : State) : Host.Outcome State Fault Refusal :=
  match i with
  | .busData b => Sys2Proof.Machine.execBusData b s
  | .busRead => Sys2Proof.Machine.execBusRead s
  | .busStop => Sys2Proof.Machine.execBusStop s
  | .busAbort => Sys2Proof.Machine.execBusAbort s
  | .push r => Sys2Proof.Machine.execPush r s
  | .setModmask m => Sys2Proof.Machine.execSetModmask m s
  | .setCursor c => Sys2Proof.Machine.execSetCursor c s
  | .setTshigh t => Sys2Proof.Machine.execSetTshigh t s
  | .setModvalid v => Sys2Proof.Machine.execSetModvalid v s
  | .reset => Sys2Proof.Machine.execReset s
  | .regDeviceId => Sys2Proof.Machine.execRegDeviceId s
  | .regFwVersion => Sys2Proof.Machine.execRegFwVersion s
  | .regStatus => Sys2Proof.Machine.execRegStatus s
  | .regModMask => Sys2Proof.Machine.execRegModMask s
  | .regFifoCount => Sys2Proof.Machine.execRegFifoCount s
  | .regFifoPop => Sys2Proof.Machine.execRegFifoPop s
  | .regCfgFlags => Sys2Proof.Machine.execRegCfgFlags s
  | .regCursor => Sys2Proof.Machine.execRegCursor s
  | .regLedState => Sys2Proof.Machine.execRegLedState s
  | .regScanRate => Sys2Proof.Machine.execRegScanRate s
  | .regClockHigh => Sys2Proof.Machine.execRegClockHigh s
  | .regUnmapped0B => Sys2Proof.Machine.execRegUnmapped0B s
  | .regUnmapped0C0F p => Sys2Proof.Machine.execRegUnmapped0C0F p s
  | .regUnmapped101F p => Sys2Proof.Machine.execRegUnmapped101F p s
  | .regUnmapped203F p => Sys2Proof.Machine.execRegUnmapped203F p s
  | .regUnmapped407F p => Sys2Proof.Machine.execRegUnmapped407F p s
  | .regUnmapped80FF p => Sys2Proof.Machine.execRegUnmapped80FF p s

end Sys2Proof.Machine
end

