-- ==== Sys2Proof/Machine/Fetch.lean ====
section
/-! DEFINITION. What the next step performs. The block fetches nothing from a memory (20_memory.md R63): it performs the
oldest operation word presented to it (00_scope.md R7), or, where a byte event is under way, the register-select row that
the pointer matches (30_encoding.md R72). -/

namespace Sys2Proof.Machine

open Sys2Proof

/-- What the next step performs. -/
inductive Fetched where
  /-- Nothing is presented (log 2). -/
  | idle
  /-- Instruction `i`, on the state `s` that no longer holds its word. -/
  | instr (i : Instr) (s : State)
  /-- A reserved operation word (30_encoding.md R67). -/
  | reserved (why : ReservedCase)
deriving DecidableEq, Repr

/-- The next instruction: the pointed row of a byte event under way, else the oldest presented word, decoded. -/
def fetch (s : State) : Fetched :=
  match s.event with
  | some _ => .instr (decodeReg s.engine.ptr) s
  | none =>
    match s.input with
    | [] => .idle
    | w :: rest =>
      match decodeOp w with
      | .instr i => .instr i { s with input := rest }
      | .reserved why => .reserved why

/-- A step with nothing presented: nothing changes, and there is no output (log 2). -/
def idleState (s : State) : State := { s with out := .nothing }

/-- The state in which the next step performs code `c`: an operation word is presented first of all, with no byte event
under way; a register-select row is reached by a read whose pointer is at byte 0 of its register (log 4, log 12). -/
def presentCode (c : Code) (s : State) : State :=
  match c with
  | .op w => { s with event := none, input := w :: s.input }
  | .regSel p => { s with event := some .read, engine := { s.engine with ptr := p, subIndex := 0 } }

end Sys2Proof.Machine
end

