-- ==== Sys2Proof/Machine/Step.lean ====
section
/-! DEFINITION. One step of the block: one atomic operation (00_scope.md R7, R8). -/

namespace Sys2Proof.Machine

open Sys2Proof

/-- One step: the fetched instruction is performed; a reserved word is refused (30_encoding.md R67); with nothing
presented the block stays as it is (log 2). -/
def step (s : State) : Host.Outcome State Fault Refusal :=
  match fetch s with
  | .idle => .next (idleState s)
  | .instr i s' => exec i s'
  | .reserved why => .refused (.reservedEncoding why)

/-- `s` with an opcode-table word placed where the next step takes its instruction from (log 12). A word that the table
gives no form changes nothing. -/
def State.withFetchWord (s : State) (nbits w : Nat) : State :=
  match codeOfTableWord nbits w with
  | none => s
  | some c => presentCode c s

end Sys2Proof.Machine
end

