-- ==== Sys2Proof/Machine/Notation.lean ====
section
/-! DEFINITION. The written forms the spec gives the agents' traffic: the assembler notation (30_encoding.md R73), the host
transaction patterns (R74), the event-type and cursor codes (10_state.md R17, R18), and the producer's contract (40_fifo.md
R82). The block interprets none of them. -/

namespace Sys2Proof.Machine

open Sys2Proof

/-! ## Assembler notation (R73) -/

/-- One hexadecimal digit. -/
def hexDigit (d : BitVec 4) : String :=
  ["0", "1", "2", "3", "4", "5", "6", "7", "8", "9", "A", "B", "C", "D", "E", "F"].getD d.toNat ""

/-- A byte as `0xHH`. -/
def hexByte (b : Byte) : String := "0x" ++ hexDigit (b.extractLsb' 4 4) ++ hexDigit (b.extractLsb' 0 4)

/-- A 16-bit value as `0xHHHH`. -/
def hexHalf (t : Half) : String :=
  hexByte (t.extractLsb' 8 8) ++ hexDigit (t.extractLsb' 4 4) ++ hexDigit (t.extractLsb' 0 4)

/-- The line of R73 for an operation; a register-select row has none, for no agent presents it. -/
def assembly : Instr → Option String
  | .busData b => some ("WR " ++ hexByte b)
  | .busRead => some "RD"
  | .busStop => some "STOP"
  | .busAbort => some "ABORT"
  | .push r => some ("PUSH " ++ hexByte r.type ++ ", " ++ hexByte r.code ++ ", " ++ hexByte r.modMask ++ ", " ++ hexByte r.timestampLow)
  | .setModmask m => some ("SETMOD " ++ hexByte m)
  | .setCursor c => some ("SETCUR " ++ hexByte c)
  | .setTshigh t => some ("SETTS " ++ hexHalf t)
  | .setModvalid v => some (if v then "SETMV 1" else "SETMV 0")
  | .reset => some "RESET"
  | .regDeviceId | .regFwVersion | .regStatus | .regModMask | .regFifoCount | .regFifoPop => none
  | .regCfgFlags | .regCursor | .regLedState | .regScanRate | .regClockHigh | .regUnmapped0B => none
  | .regUnmapped0C0F _ | .regUnmapped101F _ | .regUnmapped203F _ | .regUnmapped407F _ | .regUnmapped80FF _ => none

/-! ## Host transaction patterns (R74) -/

/-- `READREG p, n`. -/
def pseudoReadReg (p : Byte) (n : Nat) : List Instr := .busData p :: List.replicate n .busRead ++ [.busStop]

/-- `WRITEREG p, b0, ..., bk`. -/
def pseudoWriteReg (p : Byte) (bytes : List Byte) : List Instr := .busData p :: bytes.map .busData ++ [.busStop]

/-- `WRREAD p, n`: the pointer stays valid. -/
def pseudoWrRead (p : Byte) (n : Nat) : List Instr := .busData p :: List.replicate n .busRead

/-- `POPEVENT`. -/
def pseudoPopEvent : List Instr := pseudoReadReg 0x05 4

/-- `SETLED x, y, z`. -/
def pseudoSetLed (x y z : Byte) : List Instr := pseudoWriteReg 0x08 [x, y, z]

/-- The operation words that present a list of operations; a register-select row has none. -/
def presentedWords (ops : List Instr) : List OpWord :=
  ops.filterMap fun i => match encode i with
    | .op w => some w
    | .regSel _ => none

/-! ## Codes inside records (10_state.md R17, R18) -/

/-- The event types that R17 names. -/
inductive EventType where
  | nop | keyDown | keyUp | modChange | cursor | special
deriving DecidableEq, Repr

/-- The type byte of a named event type (R17). -/
def typeCode : EventType → Byte
  | .nop => 0
  | .keyDown => 1
  | .keyUp => 2
  | .modChange => 3
  | .cursor => 4
  | .special => 5

/-- The cursor directions (R18). -/
inductive CursorDir where
  | up | down | left | right | center
deriving DecidableEq, Repr

/-- The direction id of a CURSOR code, bits [6:0] (R18). -/
def directionId : CursorDir → BitVec 7
  | .up => 1
  | .down => 2
  | .left => 3
  | .right => 4
  | .center => 5

/-- The code byte of a CURSOR record: bit 7 is 1 on release (R18). -/
def cursorCode (d : CursorDir) (release : Bool) : Byte := BitVec.ofBool release ++ directionId d

/-! ## The producer's contract (40_fifo.md R82): premises for a system model, not checked by the block -/

/-- The scan rate as the producer uses it: its port's value, clamped to at least 1 (40_fifo.md R81). The clamp is the
producer's; the block stores and serves 0. -/
def producerScanRate (portValue : Half) : Nat := max 1 portValue.toNat

/-- `r` is the ordinary key event of a press or release with mask `mask`. -/
def isKeyEvent (code mask : Byte) (release : Bool) (r : Record) : Bool :=
  r.type == typeCode (if release then .keyUp else .keyDown) && r.code == code && r.modMask == mask

/-- R82 (1) with (4): the mask change, then the key event, in that order, both with the new mask. -/
def isModifierKeyTraffic (code newMask : Byte) (release : Bool) : List Record → Bool
  | [a, b] => a.type == typeCode .modChange && a.modMask == newMask && isKeyEvent code newMask release b
  | _ => false

/-- R82 (2) with (4): a single key event with the current mask. -/
def isPlainKeyTraffic (code mask : Byte) (release : Bool) : List Record → Bool
  | [a] => isKeyEvent code mask release a
  | _ => false

/-- `r` is the CURSOR event of direction `d`. -/
def isCursorEvent (d : CursorDir) (mask : Byte) (release : Bool) (r : Record) : Bool :=
  r.type == typeCode .cursor && r.code == cursorCode d release && r.modMask == mask

/-- R82 (3) with (4): both the key event and the CURSOR event are queued; R82 does not fix which comes first. -/
def isCursorKeyTraffic (d : CursorDir) (code mask : Byte) (release : Bool) : List Record → Bool
  | [a, b] =>
    (isKeyEvent code mask release a && isCursorEvent d mask release b) ||
      (isCursorEvent d mask release a && isKeyEvent code mask release b)
  | _ => false

end Sys2Proof.Machine
end

