-- ==== Sys2Proof/Safety.lean ====
section
/-! DEFINITION. The terms the statements use: the invariants of 10_state.md R44, the records a ring holds in order, what
two states must share to be indistinguishable from outside (00_scope.md R13), and runs that keep every output. -/

namespace Sys2Proof.Machine

open Sys2Proof

/-- The invariants of 10_state.md R44. -/
structure State.Inv (s : State) : Prop where
  /-- `full = 1 ⇒ head = tail`. -/
  full_meets : s.ring.full = true → s.ring.head = s.ring.tail
  /-- `0 ≤ count ≤ 64`. -/
  count_bound : s.ring.count ≤ 64
  /-- `subIndex < width(ptr)`. -/
  sub_in_width : s.engine.subIndex.toNat < width s.engine.ptr
  /-- `cacheValid = 0 ⇒ cacheOffset = 0`. -/
  offset_zero : s.engine.cacheValid = false → s.engine.cacheOffset = 0
  /-- `cacheOffset ≤ 3`. -/
  offset_bound : s.engine.cacheOffset.toNat ≤ 3

/-- The records in the ring, oldest first: the `count` slots from `tail` on (10_state.md R20, R22). -/
def Ring.queue (r : Ring) : List Record :=
  (List.range r.count).map fun k => r.slots[slotOf (r.tail + BitVec.ofNat 6 k)]

/-- Two rings that hold the same records at the same indices; slots that hold no record may differ. -/
structure Ring.Same (r r' : Ring) : Prop where
  head_eq : r.head = r'.head
  tail_eq : r.tail = r'.tail
  full_eq : r.full = r'.full
  queue_eq : r.queue = r'.queue

/-- Two engine states equal but for the record of an invalid cache. -/
structure Engine.Same (e e' : Engine) : Prop where
  ptr_eq : e.ptr = e'.ptr
  sub_eq : e.subIndex = e'.subIndex
  pointerValid_eq : e.pointerValid = e'.pointerValid
  cacheValid_eq : e.cacheValid = e'.cacheValid
  offset_eq : e.cacheOffset = e'.cacheOffset
  record_eq : e.cacheValid = true → e.cacheRecord = e'.cacheRecord

/-- Two states equal but for the contents that 10_state.md R43 leaves unspecified at reset: slots that hold no record, and
the record of an invalid cache. -/
structure State.Same (s s' : State) : Prop where
  ring_same : s.ring.Same s'.ring
  bank_eq : s.bank = s'.bank
  engine_same : s.engine.Same s'.engine
  event_eq : s.event = s'.event
  input_eq : s.input = s'.input
  out_eq : s.out = s'.out

/-- Two answers of a step that no observer tells apart: next states related by `State.Same`, or the same refusal. -/
inductive SameAnswer : Result → Result → Prop where
  | next (s s' : State) (h : s.Same s') : SameAnswer (.next s) (.next s')
  | refused (why : Refusal) : SameAnswer (.refused why) (.refused why)

/-- The byte an output serves, if it serves one. -/
def servedByte : Output → Option Byte
  | .served b => some b
  | .nothing | .pushOk | .pushFail | .ledUpdate _ _ _ => none

/-- Whether an output is a LedUpdate. -/
def isLedUpdate : Output → Bool
  | .ledUpdate _ _ _ => true
  | .nothing | .served _ | .pushOk | .pushFail => false

/-- The operations of a list in order, each on the state the one before it left: every output in order, and the last
state; none where one of them stops. -/
def trace : List Instr → State → Option (List Output × State)
  | [], s => some ([], s)
  | i :: is, s =>
    match exec i s with
    | .next t => (trace is t).map fun r => (t.out :: r.1, r.2)
    | .fault _ => none
    | .refused _ => none

end Sys2Proof.Machine
end

