-- ==== Sys2Proof/Certificates/Slice0/Obligations.lean ====
section
/-! DEFINITION. The statements for the provers, from the numbered rules of spec/. Each register-select row is stated at
`{ s with event := some … }`, so both of its forms are covered without a hypothesis. -/

namespace Sys2Proof.Machine

open Sys2Proof

/-! ## The words of the statements -/

/-- The payload bits that an `OP` leaves unused (30_encoding.md R69); none for a reserved `OP`. -/
def unusedBits (op : BitVec 4) : BitVec 32 :=
  if op = 0x0 ∨ op = 0x9 ∨ op = 0xA then 0xFFFFFF00
  else if op = 0x1 ∨ op = 0x2 ∨ op = 0x3 ∨ op = 0xF then 0xFFFFFFFF
  else if op = 0xB then 0xFFFF0000
  else if op = 0xC then 0xFFFFFFFE
  else 0

/-- `OP` is 0x4..0x7, 0xD or 0xE (30_encoding.md R67). -/
def isReservedOp (op : BitVec 4) : Prop :=
  op = 0x4 ∨ op = 0x5 ∨ op = 0x6 ∨ op = 0x7 ∨ op = 0xD ∨ op = 0xE

/-- The byte a host read gives at location (p, k), for every register but FIFO_POP (10_state.md R37). -/
def registerByte (p : Byte) (k : BytePos) (s : State) : Byte :=
  match p.toNat with
  | 0x00 => Config.deviceId
  | 0x01 => if k = 0 then Config.fwMajor else Config.fwMinor
  | 0x02 => statusByte s
  | 0x03 => s.bank.modMask
  | 0x04 => BitVec.ofNat 8 (min s.ring.count 64)
  | 0x06 => s.bank.cfgFlags
  | 0x07 => s.bank.cursorState
  | 0x08 => if k = 0 then s.bank.ledState[0] else if k = 1 then s.bank.ledState[1] else s.bank.ledState[2]
  | 0x09 => s.bank.scanRateHz.extractLsb' 0 8
  | 0x0A => if k = 0 then s.bank.timestampHigh.extractLsb' 8 8 else s.bank.timestampHigh.extractLsb' 0 8
  | _ => 0x00

/-- The LED bytes after `b` is stored at byte `k`. -/
def ledAfter (led : Vector Byte 3) (k : BytePos) (b : Byte) : Vector Byte 3 :=
  #v[if k = 0 then b else led[0], if k = 1 then b else led[1], if k = 2 then b else led[2]]

/-- The register bank after a host write of `b` at location (p, k): four registers are writable, any other write is
discarded (10_state.md R37). -/
def bankAfterWrite (p : Byte) (k : BytePos) (b : Byte) (bank : Bank) : Bank :=
  match p.toNat with
  | 0x03 => { bank with modMask := b }
  | 0x06 => { bank with cfgFlags := b }
  | 0x08 => { bank with ledState := ledAfter bank.ledState k b }
  | 0x09 => { bank with scanRateHz := b.setWidth 16 }
  | _ => bank

/-- The LedUpdate of three LED bytes: `(led[π(0)], led[π(1)], led[π(2)])` (10_state.md R41). -/
def ledUpdateOf (led : Vector Byte 3) : Output :=
  .ledUpdate led[Config.ledCallbackOrder.image 0] led[Config.ledCallbackOrder.image 1]
    led[Config.ledCallbackOrder.image 2]

/-- The state after a byte event that changes no bank field, ring field or cache field: the pointer advances and `out` is
the output. -/
def afterEvent (s : State) (out : Output) : State :=
  { s with engine := s.engine.advance, event := none, out := out }

/-- Instruction `i` on `s` is a host write to the register at `p`: the data form of BUS_DATA, or the row of `p` with a
write under way. -/
def HostWrites (i : Instr) (s : State) (p : Byte) : Prop :=
  (∃ b, i = .busData b ∧ s.engine.pointerValid = true ∧ s.engine.ptr = p) ∨
    (i = decodeReg p ∧ ∃ b, s.event = some (.write b))

/-- Instruction `i` on `s` reads FIFO_POP with no valid cache, which is when the engine performs RingPop
(42_register_file.md R95). -/
def popsNow (i : Instr) (s : State) : Bool :=
  !s.engine.cacheValid &&
    ((i == .busRead && s.engine.ptr == 0x05) || (i == .regFifoPop && s.event == some .read))

/-- The records in the ring after `i` on `s`, as a bounded queue keeps them. -/
def queueAfter (i : Instr) (s : State) : List Record :=
  match i with
  | .push r => if s.ring.queue.length < 64 then s.ring.queue ++ [r] else s.ring.queue
  | .reset => []
  | i => if popsNow i s then s.ring.queue.tail else s.ring.queue

/-- The record that a pop by `i` moved out of the ring of `s`, as the model holds it after the operation, in the cache; none
where `i` pops nothing or the ring was empty. -/
def poppedRecord (i : Instr) (s t : State) : List Record :=
  if popsNow i s && !s.ring.queue.isEmpty then [t.engine.cacheRecord] else []

/-- The record that `i` put into the ring: that of a PUSH that answered OK. -/
def acceptedRecord (i : Instr) (t : State) : List Record :=
  match i with
  | .push r => if t.out = .pushOk then [r] else []
  | _ => []

/-- The records that operations put into the ring, the records that their pops loaded into the cache, each in order, and the
last state. -/
def recordFlow : List Instr → State → Option (List Record × List Record × State)
  | [], s => some ([], [], s)
  | i :: is, s =>
    match exec i s with
    | .next t =>
      (recordFlow is t).map fun f => (acceptedRecord i t ++ f.1, poppedRecord i s t ++ f.2.1, f.2.2)
    | .fault _ => none
    | .refused _ => none

/-- The record that the next pop yields: the oldest in the ring, or the NOP record with the live mask (42_register_file.md
R95). -/
def nextRecord (s : State) : Record :=
  match s.ring.queue with
  | r :: _ => r
  | [] => ⟨0x00, 0x00, s.bank.modMask, 0x00⟩

/-- The register bank after the bytes are stored one by one, the first at the location of `e`, each next one where the
engine has advanced to. -/
def bankAfterBytes : List Byte → Engine → Bank → Bank
  | [], _, bank => bank
  | b :: bs, e, bank => bankAfterBytes bs e.advance (bankAfterWrite e.ptr e.subIndex b bank)

/-- The four bytes of a record in wire order (20_memory.md R47). -/
def recordBytes (r : Record) : List Byte := [r.type, r.code, r.modMask, r.timestampLow]

/-- The instructions of the register-select rows. -/
def isRegisterRow (i : Instr) : Prop := ∃ p, i = decodeReg p

end Sys2Proof.Machine

open Sys2Proof Sys2Proof.Machine

/-! ## Encoding -/

/-- Every well-formed instruction decodes from its encoding with every operand (30_encoding.md section 3 and section 4;
the word layout is the spec's decision D2, the register addresses its inference D7). -/
def Obligations.EncodedInstructionDecodesToItself : Prop :=
  ∀ i : Instr, i.wellFormed = true → decode (encode i) = .instr i

/-- A word that decodes is the only encoding of its instruction, and that instruction is well formed: decoding drops no
bit (30_encoding.md sections 1 to 4, D2, D7). -/
def Obligations.DecodedWordIsTheEncoding : Prop :=
  ∀ (c : Code) (i : Instr), decode c = .instr i → encode i = c ∧ i.wellFormed = true

/-- An operation word is reserved in exactly the three cases of 30_encoding.md R67 (the spec's decisions D2, D28). -/
def Obligations.ReservedWordsAreExactlyThese : Prop :=
  ∀ w : OpWord, (∃ why, decodeOp w = .reserved why) ↔
    isReservedOp (opField w) ∨ rsvField w ≠ 0 ∨ payloadField w &&& unusedBits (opField w) ≠ 0

/-- The words of 95_test_vectors.md section 2.1 decode as that table says. -/
def Obligations.SpecWordsDecodeAsListed : Prop :=
  decodeOp 0x000000005A = .instr (.busData 0x5A) ∧ decodeOp 0x1000000000 = .instr .busRead ∧
  decodeOp 0x2000000000 = .instr .busStop ∧ decodeOp 0x3000000000 = .instr .busAbort ∧
  decodeOp 0x8010020401 = .instr (.push ⟨0x01, 0x04, 0x02, 0x10⟩) ∧
  decodeOp 0x9000000002 = .instr (.setModmask 0x02) ∧ decodeOp 0xA000000011 = .instr (.setCursor 0x11) ∧
  decodeOp 0xB00000BEEF = .instr (.setTshigh 0xBEEF) ∧ decodeOp 0xC000000001 = .instr (.setModvalid true) ∧
  decodeOp 0xF000000000 = .instr .reset ∧
  decodeOp 0x80FFFFFFFF = .instr (.push ⟨0xFF, 0xFF, 0xFF, 0xFF⟩) ∧
  decodeReg 0x05 = .regFifoPop ∧ decodeReg 0x08 = .regLedState ∧ decodeReg 0x0F = .regUnmapped0C0F 0x0F

/-- The seventeen rows of the register-address decode (30_encoding.md section 4; one address per register is the spec's
inference D7). -/
def Obligations.RegisterSelectFollowsItsRows : Prop :=
  decodeReg 0x00 = .regDeviceId ∧ decodeReg 0x01 = .regFwVersion ∧ decodeReg 0x02 = .regStatus ∧
  decodeReg 0x03 = .regModMask ∧ decodeReg 0x04 = .regFifoCount ∧ decodeReg 0x05 = .regFifoPop ∧
  decodeReg 0x06 = .regCfgFlags ∧ decodeReg 0x07 = .regCursor ∧ decodeReg 0x08 = .regLedState ∧
  decodeReg 0x09 = .regScanRate ∧ decodeReg 0x0A = .regClockHigh ∧ decodeReg 0x0B = .regUnmapped0B ∧
  (∀ p : Byte, p &&& 0xFC = 0x0C → decodeReg p = .regUnmapped0C0F p) ∧
  (∀ p : Byte, p &&& 0xF0 = 0x10 → decodeReg p = .regUnmapped101F p) ∧
  (∀ p : Byte, p &&& 0xE0 = 0x20 → decodeReg p = .regUnmapped203F p) ∧
  (∀ p : Byte, p &&& 0xC0 = 0x40 → decodeReg p = .regUnmapped407F p) ∧
  (∀ p : Byte, p &&& 0x80 = 0x80 → decodeReg p = .regUnmapped80FF p)

/-! ## The step -/

/-- A step performs the oldest presented word: it is exec of the decoded instruction on the state without that word
(00_scope.md section 4; that State holds the presented words in order is the model's choice, log 3). -/
def Obligations.StepRunsThePresentedOperation : Prop :=
  ∀ (s : State) (w : OpWord) (rest : List OpWord) (i : Instr),
    s.event = none → s.input = w :: rest → decodeOp w = .instr i →
    i.wellFormed = true ∧ step s = exec i { s with input := rest }

/-- With a byte event under way, a step performs the register-select row that the pointer matches, and takes no word (the
model's choice, log 4; 30_encoding.md section 5 gives the second decode level). -/
def Obligations.StepRunsThePointedRow : Prop :=
  ∀ (s : State) (ev : ByteEvent),
    step { s with event := some ev } = exec (decodeReg s.engine.ptr) { s with event := some ev }

/-- A reserved word is refused by name (30_encoding.md section 1; the spec's decision D28). -/
def Obligations.StepRefusesAReservedWord : Prop :=
  ∀ (s : State) (w : OpWord) (rest : List OpWord) (why : ReservedCase),
    s.event = none → s.input = w :: rest → decodeOp w = .reserved why →
    step s = .refused (.reservedEncoding why)

/-- With nothing presented, a step changes nothing and gives no output (the model's choice, log 2). -/
def Obligations.StepWithNothingPresentedIsIdle : Prop :=
  ∀ s : State, s.event = none → s.input = [] → step s = .next { s with out := .nothing }

/-- BUS_READ is the read of the row that `ptr` matches, and BUS_DATA with a valid pointer the write of its byte there: the
two decode levels of 30_encoding.md section 5 are one atomic operation (00_scope.md section 4). -/
def Obligations.ByteEventRunsThePointedRow : Prop :=
  ∀ (s : State) (b : Byte),
    exec .busRead s = exec (decodeReg s.engine.ptr) { s with event := some .read } ∧
    (s.engine.pointerValid = true →
      exec (.busData b) s = exec (decodeReg s.engine.ptr) { s with event := some (.write b) })

/-- After a step no byte event is under way: every operation is complete before the next (60_exceptions.md section 4; the
field `event` is the model's, log 4). -/
def Obligations.EveryStepEndsItsByteEvent : Prop :=
  ∀ s t : State, step s = .next t → t.event = none

/-- Every instruction answers a next state in every state: no fault, no stuck state, no refusal (60_exceptions.md section
1; the spec's own inference). -/
def Obligations.EveryInstructionCompletes : Prop :=
  ∀ (i : Instr) (s : State), ∃ t, exec i s = .next t

/-- Any list of presented words none of which is reserved is performed to its end, one word a step, in whatever order the
agents presented them (20_memory.md section 7, 00_scope.md section 7; the list of presented words is the model's, log
3). -/
def Obligations.EveryPresentedSequenceRunsToItsEnd : Prop :=
  ∀ (ws : List OpWord) (s : State), s.event = none → s.input = ws →
    (∀ w ∈ ws, ∃ i, decodeOp w = .instr i) →
    ∃ t, Host.Core.run Sys2Proof.core ws.length s = .next t ∧ t.input = [] ∧ t.event = none

/-! ## The bus operations -/

/-- `Advance()` (41_bus_engine.md section 1): the sub-index goes on while the register has more bytes, else the pointer
goes to the next address, wrapping after 0xFF; nothing else of the engine state changes. -/
def Obligations.AdvanceMovesToTheNextByte : Prop :=
  width 0x01 = 2 ∧ width 0x05 = 4 ∧ width 0x08 = 3 ∧ width 0x0A = 2 ∧
  (∀ p : Byte, p ≠ 0x01 → p ≠ 0x05 → p ≠ 0x08 → p ≠ 0x0A → width p = 1) ∧
  ∀ e : Engine,
    (e.subIndex.toNat + 1 < width e.ptr → e.advance = { e with subIndex := e.subIndex + 1 }) ∧
    (¬ e.subIndex.toNat + 1 < width e.ptr → e.advance = { e with subIndex := 0, ptr := e.ptr + 1 })

/-- From byte 0 of a register, k advances reach byte k of it, and `width` advances reach byte 0 of the next address: the
locations come in the order of 20_memory.md section 1. -/
def Obligations.AdvancesVisitEveryByteInOrder : Prop :=
  ∀ (e : Engine) (k : Nat), e.subIndex = 0 →
    (k < width e.ptr → Engine.advance^[k] e = { e with subIndex := BitVec.ofNat 2 k }) ∧
    Engine.advance^[width e.ptr] e = { e with ptr := e.ptr + 1 }

/-- BUS_DATA with no latched pointer latches its byte, 0x00..0xFF alike; nothing is written and nothing advances
(41_bus_engine.md section 2). -/
def Obligations.BusDataLatchesThePointer : Prop :=
  ∀ (b : Byte) (s : State), s.engine.pointerValid = false →
    exec (.busData b) s =
      .next { s with engine := { s.engine with ptr := b, subIndex := 0, pointerValid := true }, event := none,
                     out := .nothing }

/-- BUS_DATA with a latched pointer writes its byte by the write table and advances; only (0x08, 2) emits LedUpdate, after
the write (41_bus_engine.md section 2, 42_register_file.md; registers at the addresses of D7, writes by D15, D19, D21,
D22). -/
def Obligations.BusDataWritesTheTable : Prop :=
  ∀ (b : Byte) (s : State), s.Inv → s.engine.pointerValid = true →
    exec (.busData b) s =
      .next { s with
        bank := bankAfterWrite s.engine.ptr s.engine.subIndex b s.bank,
        engine := s.engine.advance,
        event := none,
        out := if s.engine.ptr = 0x08 ∧ s.engine.subIndex = 2
          then ledUpdateOf (ledAfter s.bank.ledState 2 b) else .nothing }

/-- BUS_READ at any address but 0x05 serves the byte of the read table and advances; nothing else changes, and
`pointerValid` is neither read nor written (41_bus_engine.md section 3, 42_register_file.md; D7, D9, D23). -/
def Obligations.BusReadServesTheTable : Prop :=
  ∀ s : State, s.Inv → s.engine.ptr ≠ 0x05 →
    exec .busRead s = .next (afterEvent s (.served (registerByte s.engine.ptr s.engine.subIndex s)))

/-- BUS_READ at 0x05 serves byte `cacheOffset` of the cached record, or, with no valid cache, byte 0 of the next record,
which leaves the ring; the pointer advances (42_register_file.md, register 0x05; the cache is the spec's decision D12, the
NOP record D13 and D14). -/
def Obligations.BusReadPopsAtFifoPop : Prop :=
  ∀ s : State, s.Inv → s.engine.ptr = 0x05 →
    (s.engine.cacheValid = true → s.engine.cacheOffset ≠ 3 →
      exec .busRead s = .next
        (afterEvent { s with engine := { s.engine with cacheOffset := s.engine.cacheOffset + 1 } }
          (.served (recordByte s.engine.cacheRecord s.engine.cacheOffset)))) ∧
    (s.engine.cacheValid = true → s.engine.cacheOffset = 3 →
      exec .busRead s = .next
        (afterEvent { s with engine := { s.engine with cacheValid := false, cacheOffset := 0 } }
          (.served s.engine.cacheRecord.timestampLow))) ∧
    (s.engine.cacheValid = false → ∃ ring : Ring,
      ring.queue = s.ring.queue.tail ∧ ring.slots = s.ring.slots ∧ ring.head = s.ring.head ∧
      exec .busRead s = .next
        (afterEvent { s with
            ring := ring,
            engine := { s.engine with cacheRecord := nextRecord s, cacheValid := true, cacheOffset := 1 } }
          (.served (nextRecord s).type)))

/-- BUS_STOP and BUS_ABORT clear pointer-valid, the cache and the sub-index and keep everything else, `ptr` and the ring
among it (41_bus_engine.md sections 4 and 5; the sub-index is the spec's decision D10, ABORT its decision D11). -/
def Obligations.StopAndAbortEndTheTransaction : Prop :=
  ∀ s : State,
    exec .busStop s =
      .next { s with
        engine := { s.engine with pointerValid := false, cacheValid := false, cacheOffset := 0, subIndex := 0 },
        event := none, out := .nothing } ∧
    exec .busAbort s =
      .next { s with
        engine := { s.engine with pointerValid := false, cacheValid := false, cacheOffset := 0, subIndex := 0 },
        event := none, out := .nothing }

/-- After STOP or ABORT and any operations with no BUS_DATA among them, BUS_READs too, the first BUS_DATA is a pointer: it is
latched, `pointerValid` becomes 1, and nothing is written. From then on, after any operations with no STOP, ABORT or RESET
among them, BUS_DATA is data: the write of its byte at the row that the pointer matches, and the pointer advances. BUS_READ
and the producer's operations keep `pointerValid` at either value (R118). -/
def Obligations.NewTransactionNeedsANewPointer : Prop :=
  (∀ (s : State) (ending : Instr) (between : List Instr) (p : Byte),
    ending = .busStop ∨ ending = .busAbort → (∀ i ∈ between, ∀ b, i ≠ .busData b) →
    ∃ outs t, trace (ending :: between) s = some (outs, t) ∧ t.engine.pointerValid = false ∧
      exec (.busData p) t =
        .next { t with
          engine := { t.engine with ptr := p, subIndex := 0, pointerValid := true }, event := none, out := .nothing }) ∧
  (∀ (s : State) (between : List Instr) (b : Byte), s.engine.pointerValid = true →
    (∀ i ∈ between, i ≠ .busStop ∧ i ≠ .busAbort ∧ i ≠ .reset) →
    ∃ outs t u, trace between s = some (outs, t) ∧ t.engine.pointerValid = true ∧
      exec (.busData b) t = exec (decodeReg t.engine.ptr) { t with event := some (.write b) } ∧
      exec (.busData b) t = .next u ∧ u.engine = t.engine.advance ∧ u.engine.pointerValid = true) ∧
  ∀ (s : State) (i : Instr), i = .busRead ∨ i.agent = .producer →
    ∃ t, exec i s = .next t ∧ t.engine.pointerValid = s.engine.pointerValid

/-! ## The producer's operations and reset -/

/-- PUSH: FAIL on a full ring, which sets ERROR and stores nothing; else the record goes to slot `head`, `head` advances
mod 64, and `full` is set when `head` meets `tail` (40_fifo.md section 1; the head and tail convention is the spec's
decision D5). -/
def Obligations.PushStoresOrFails : Prop :=
  ∀ (r : Record) (s : State),
    (s.ring.full = true →
      exec (.push r) s = .next { s with bank := { s.bank with errorSticky := true }, out := .pushFail }) ∧
    (s.ring.full = false →
      exec (.push r) s = .next { s with
        ring := { s.ring with
          slots := s.ring.slots.set s.ring.head.toNat r s.ring.head.isLt,
          head := s.ring.head + 1,
          full := decide (s.ring.head + 1 = s.ring.tail) },
        out := .pushOk })

/-- SET_MODMASK writes `modMask` and nothing else: a queued or cached record keeps its own byte, and the NOP record that a
FIFO_POP read makes after it, on an empty ring with no valid cache, carries `m` (R77). -/
def Obligations.SetModMaskWritesModMask : Prop :=
  ∀ (m : Byte) (s : State),
    encode (.setModmask m) = .op (opWord 0x9 (m.setWidth 32)) ∧
    exec (.setModmask m) s = .next { s with bank := { s.bank with modMask := m }, out := .nothing } ∧
    (s.ring.queue = [] → s.engine.cacheValid = false →
      (s.engine.ptr = 0x05 → ∃ outs t, trace [.setModmask m, .busRead] s = some (outs, t) ∧
        t.engine.cacheValid = true ∧ t.engine.cacheRecord.modMask = m) ∧
      ∃ t, exec .regFifoPop { s with bank := { s.bank with modMask := m }, event := some .read } = .next t ∧
        t.engine.cacheValid = true ∧ t.engine.cacheRecord.modMask = m)

/-- SET_CURSOR writes all eight bits of `cursorState` and nothing else (R78). -/
def Obligations.SetCursorWritesCursorState : Prop :=
  ∀ (c : Byte) (s : State),
    encode (.setCursor c) = .op (opWord 0xA (c.setWidth 32)) ∧
    exec (.setCursor c) s = .next { s with bank := { s.bank with cursorState := c }, out := .nothing }

/-- SET_TSHIGH writes all 16 bits of `timestampHigh` at once and nothing else; no other operation but RESET changes it
(R79). -/
def Obligations.SetTshighWritesTimestampHigh : Prop :=
  ∀ (t : Half) (s : State),
    encode (.setTshigh t) = .op (opWord 0xB (t.setWidth 32)) ∧
    exec (.setTshigh t) s = .next { s with bank := { s.bank with timestampHigh := t }, out := .nothing } ∧
    ∀ (i : Instr) (u : State), (∀ t', i ≠ .setTshigh t') → i ≠ .reset → exec i s = .next u →
      u.bank.timestampHigh = s.bank.timestampHigh

/-- SET_MODVALID writes MOD_VALID and nothing else (40_fifo.md section 3; that the producer writes the bit is the spec's
decision D16). -/
def Obligations.SetModValidWritesModValid : Prop :=
  ∀ (v : Bool) (s : State),
    exec (.setModvalid v) s = .next { s with bank := { s.bank with modValid := v }, out := .nothing }

/-- RESET leaves every field at the value of 10_state.md section 8 (the spec's decision D25), with no output; the words
still presented stay presented (the model's choice, log 3). STATUS is then 0x01 and INT_N 1. -/
def Obligations.ResetSetsEveryField : Prop :=
  ∀ s : State, ∃ t, exec .reset s = .next t ∧
    t.ring.head = 0 ∧ t.ring.tail = 0 ∧ t.ring.full = false ∧
    t.bank.errorSticky = false ∧ t.bank.modValid = false ∧ t.bank.modMask = 0x00 ∧ t.bank.cfgFlags = 0x00 ∧
    t.bank.cursorState = 0x00 ∧ t.bank.ledState = #v[0x00, 0x00, 0x00] ∧
    t.bank.scanRateHz = Config.scanRateReset ∧ t.bank.timestampHigh = 0x0000 ∧
    t.engine.ptr = 0x00 ∧ t.engine.subIndex = 0 ∧ t.engine.pointerValid = false ∧ t.engine.cacheValid = false ∧
    t.engine.cacheOffset = 0 ∧ t.event = none ∧ t.input = s.input ∧ t.out = .nothing ∧
    statusByte t = 0x01 ∧ intN t = true

/-! ## The register-select rows -/

/-- DEVICE_ID serves the constant `DEVICE_ID`, whatever its value, and discards a write (R90). -/
def Obligations.DeviceIdRowIsConstant : Prop :=
  ∀ (s : State) (b : Byte),
    decodeReg 0x00 = .regDeviceId ∧ width 0x00 = 1 ∧
    exec .regDeviceId { s with event := some .read } = .next (afterEvent s (.served Config.deviceId)) ∧
    exec .regDeviceId { s with event := some (.write b) } = .next (afterEvent s .nothing)

/-- FW_VERSION serves the major byte, then the minor byte, and discards a write (R91). -/
def Obligations.FwVersionRowServesMajorThenMinor : Prop :=
  ∀ (s : State) (b : Byte),
    decodeReg 0x01 = .regFwVersion ∧ width 0x01 = 2 ∧
    (s.engine.subIndex = 0 → exec .regFwVersion { s with event := some .read } =
      .next (afterEvent s (.served Config.fwMajor))) ∧
    (s.engine.subIndex = 1 → exec .regFwVersion { s with event := some .read } =
      .next (afterEvent s (.served Config.fwMinor))) ∧
    exec .regFwVersion { s with event := some (.write b) } = .next (afterEvent s .nothing)

/-- STATUS serves the status byte of the state at the read, and discards a write (42_register_file.md, register 0x02;
the spec's decisions D16, D17). -/
def Obligations.StatusRowIsLiveAndReadOnly : Prop :=
  ∀ (s : State) (b : Byte),
    exec .regStatus { s with event := some .read } = .next (afterEvent s (.served (statusByte s))) ∧
    exec .regStatus { s with event := some (.write b) } = .next (afterEvent s .nothing)

/-- MOD_MASK serves `modMask`; a host write overrides it (42_register_file.md, register 0x03; the spec's decision
D15). -/
def Obligations.ModMaskRowReadsAndOverrides : Prop :=
  ∀ (s : State) (b : Byte),
    exec .regModMask { s with event := some .read } = .next (afterEvent s (.served s.bank.modMask)) ∧
    exec .regModMask { s with event := some (.write b) } =
      .next (afterEvent { s with bank := { s.bank with modMask := b } } .nothing)

/-- FIFO_COUNT serves the number of records in the ring (the cap at 64 never takes effect, and a cached record is not
counted), and discards a write (R94). -/
def Obligations.FifoCountRowServesTheCount : Prop :=
  ∀ (s : State) (b : Byte),
    decodeReg 0x04 = .regFifoCount ∧ width 0x04 = 1 ∧ s.ring.queue.length ≤ 64 ∧
    exec .regFifoCount { s with event := some .read } =
      .next (afterEvent s (.served (BitVec.ofNat 8 (min s.ring.queue.length 64)))) ∧
    exec .regFifoCount { s with event := some (.write b) } = .next (afterEvent s .nothing)

/-- FIFO_POP, read: the cached record's next byte; with no valid cache, a record is popped at `tail`, or the NOP record is
made. FIFO_POP, written: nothing is popped and the cache is untouched (42_register_file.md, register 0x05; the spec's
decisions D12, D13, D14). -/
def Obligations.FifoPopRowPopsAndServes : Prop :=
  ∀ (s : State) (b : Byte),
    (s.engine.cacheValid = true → s.engine.cacheOffset ≠ 3 →
      exec .regFifoPop { s with event := some .read } = .next
        (afterEvent { s with engine := { s.engine with cacheOffset := s.engine.cacheOffset + 1 } }
          (.served (recordByte s.engine.cacheRecord s.engine.cacheOffset)))) ∧
    (s.engine.cacheValid = true → s.engine.cacheOffset = 3 →
      exec .regFifoPop { s with event := some .read } = .next
        (afterEvent { s with engine := { s.engine with cacheValid := false, cacheOffset := 0 } }
          (.served s.engine.cacheRecord.timestampLow))) ∧
    (s.engine.cacheValid = false → s.ring.empty = false →
      exec .regFifoPop { s with event := some .read } = .next
        (afterEvent { s with
            ring := { s.ring with tail := s.ring.tail + 1, full := false },
            engine := { s.engine with
              cacheRecord := s.ring.slots[s.ring.tail.toFin], cacheValid := true, cacheOffset := 1 } }
          (.served s.ring.slots[s.ring.tail.toFin].type))) ∧
    (s.engine.cacheValid = false → s.ring.empty = true →
      exec .regFifoPop { s with event := some .read } = .next
        (afterEvent { s with
            engine := { s.engine with
              cacheRecord := ⟨0x00, 0x00, s.bank.modMask, 0x00⟩, cacheValid := true, cacheOffset := 1 } }
          (.served 0x00))) ∧
    exec .regFifoPop { s with event := some (.write b) } = .next (afterEvent s .nothing)

/-- CFG_FLAGS serves `cfgFlags`; a host write stores all eight bits, which the producer sees on its port (R96). -/
def Obligations.CfgFlagsRowReadsAndStores : Prop :=
  ∀ (s : State) (b : Byte),
    decodeReg 0x06 = .regCfgFlags ∧ width 0x06 = 1 ∧
    exec .regCfgFlags { s with event := some .read } = .next (afterEvent s (.served s.bank.cfgFlags)) ∧
    exec .regCfgFlags { s with event := some (.write b) } =
      .next (afterEvent { s with bank := { s.bank with cfgFlags := b } } .nothing) ∧
    portCfgFlags (afterEvent { s with bank := { s.bank with cfgFlags := b } } .nothing) = b

/-- CURSOR serves `cursorState`, all eight bits, and discards a write (R97). -/
def Obligations.CursorRowIsReadOnly : Prop :=
  ∀ (s : State) (b : Byte),
    decodeReg 0x07 = .regCursor ∧ width 0x07 = 1 ∧
    exec .regCursor { s with event := some .read } = .next (afterEvent s (.served s.bank.cursorState)) ∧
    exec .regCursor { s with event := some (.write b) } = .next (afterEvent s .nothing)

/-- LED_STATE serves and stores the byte at the sub-index; only the third byte emits LedUpdate, with the bytes after the
write (42_register_file.md, register 0x08; the spec's decisions D19, D20, D21). -/
def Obligations.LedStateRowStoresAndEmits : Prop :=
  ∀ (s : State) (b : Byte), s.engine.subIndex ≠ 3 →
    exec .regLedState { s with event := some .read } =
      .next (afterEvent s (.served (registerByte 0x08 s.engine.subIndex s))) ∧
    exec .regLedState { s with event := some (.write b) } =
      .next (afterEvent { s with bank := { s.bank with ledState := ledAfter s.bank.ledState s.engine.subIndex b } }
        (if s.engine.subIndex = 2 then ledUpdateOf (ledAfter s.bank.ledState 2 b) else .nothing))

/-- SCAN_RATE serves the low byte; a host write sets all 16 bits, zero-extended and unclamped (42_register_file.md,
register 0x09; the spec's decision D22). -/
def Obligations.ScanRateRowZeroExtends : Prop :=
  ∀ (s : State) (b : Byte),
    exec .regScanRate { s with event := some .read } =
      .next (afterEvent s (.served (s.bank.scanRateHz.extractLsb' 0 8))) ∧
    exec .regScanRate { s with event := some (.write b) } =
      .next (afterEvent { s with bank := { s.bank with scanRateHz := b.setWidth 16 } } .nothing) ∧
    portScanRateHz (afterEvent { s with bank := { s.bank with scanRateHz := b.setWidth 16 } } .nothing) = b.setWidth 16

/-- CLOCK_HIGH serves the high byte, then the low byte, of the current `timestampHigh`, and discards a write
(42_register_file.md, register 0x0A; the order and the live read are the spec's decision D23). -/
def Obligations.ClockHighRowServesHighThenLow : Prop :=
  ∀ (s : State) (b : Byte),
    (s.engine.subIndex = 0 → exec .regClockHigh { s with event := some .read } =
      .next (afterEvent s (.served (s.bank.timestampHigh.extractLsb' 8 8)))) ∧
    (s.engine.subIndex = 1 → exec .regClockHigh { s with event := some .read } =
      .next (afterEvent s (.served (s.bank.timestampHigh.extractLsb' 0 8)))) ∧
    exec .regClockHigh { s with event := some (.write b) } = .next (afterEvent s .nothing)

/-- Every unmapped row serves 0x00 and discards a write, and the pointer advances (42_register_file.md, unmapped
addresses; that they are one byte wide is the spec's decision D8). -/
def Obligations.UnmappedRowsServeZero : Prop :=
  ∀ (s : State) (b p : Byte) (i : Instr),
    i ∈ [.regUnmapped0B, .regUnmapped0C0F p, .regUnmapped101F p, .regUnmapped203F p, .regUnmapped407F p,
      .regUnmapped80FF p] →
    exec i { s with event := some .read } = .next (afterEvent s (.served 0x00)) ∧
    exec i { s with event := some (.write b) } = .next (afterEvent s .nothing)

/-- With no byte event under way a register-select row accesses nothing (the model's choice, log 4). -/
def Obligations.RowsWithNoByteEventChangeNothing : Prop :=
  ∀ (s : State) (i : Instr), isRegisterRow i →
    exec i { s with event := none } = .next { s with event := none, out := .nothing }

/-! ## Invariants and rules of the whole machine -/

/-- The invariants of 10_state.md section 8 hold at reset (the reset values are the spec's decision D25). -/
def Obligations.ResetMeetsTheInvariants : Prop := State.reset.Inv

/-- Every step keeps the invariants of 10_state.md section 8 (an inference the spec marks as its own). -/
def Obligations.EveryStepKeepsTheInvariants : Prop :=
  ∀ s t : State, s.Inv → step s = .next t → t.Inv

/-- ERROR is set by a PUSH that fails, cleared by RESET, and changed by no other instruction; it is status bit 7
(R23). -/
def Obligations.ErrorIsStickyUntilReset : Prop :=
  ∀ (i : Instr) (s : State), (statusByte s).getLsbD 7 = s.bank.errorSticky ∧ ∃ t, exec i s = .next t ∧
    t.bank.errorSticky =
      match i with
      | .reset => false
      | .push _ => s.ring.full || s.bank.errorSticky
      | _ => s.bank.errorSticky

/-- Each field is changed only by its writers (R31). -/
def Obligations.EachFieldHasOnlyItsWriters : Prop :=
  ∀ (i : Instr) (s t : State), i ≠ .reset → exec i s = .next t →
    (t.bank.errorSticky ≠ s.bank.errorSticky → (∃ r, i = .push r) ∧ t.bank.errorSticky = true) ∧
    (t.bank.modValid ≠ s.bank.modValid → ∃ v, i = .setModvalid v) ∧
    (t.bank.modMask ≠ s.bank.modMask → (∃ m, i = .setModmask m) ∨ HostWrites i s 0x03) ∧
    (t.bank.cursorState ≠ s.bank.cursorState → ∃ c, i = .setCursor c) ∧
    (t.bank.timestampHigh ≠ s.bank.timestampHigh → ∃ h, i = .setTshigh h) ∧
    (t.bank.cfgFlags ≠ s.bank.cfgFlags → HostWrites i s 0x06) ∧
    (t.bank.ledState ≠ s.bank.ledState → HostWrites i s 0x08) ∧
    (t.bank.scanRateHz ≠ s.bank.scanRateHz → HostWrites i s 0x09) ∧
    (t.ring.slots ≠ s.ring.slots → ∃ r, i = .push r) ∧
    (t.ring.head ≠ s.ring.head → ∃ r, i = .push r) ∧
    (t.ring.full = true → s.ring.full = false → ∃ r, i = .push r) ∧
    (t.ring.tail ≠ s.ring.tail → popsNow i s = true) ∧
    (t.ring.full = false → s.ring.full = true → popsNow i s = true) ∧
    (t.engine ≠ s.engine → i.agent = .host)

/-- A producer operation neither writes nor reads the engine state: it leaves it, and does the same whatever it is
(R36). -/
def Obligations.ProducerNeverTouchesTheEngine : Prop :=
  ∀ (i : Instr) (s : State), i.agent = .producer → ∃ t, exec i s = .next t ∧ t.engine = s.engine ∧
    ∀ e : Engine, exec i { s with engine := e } = .next { t with engine := e }

/-- The status byte (10_state.md section 5): bit 0 says that no record is queued, bit 1 that 64 are, bit 2 is MOD_VALID,
bits 3 to 6 are 0, bit 7 is ERROR (D16, D17). -/
def Obligations.StatusByteReportsTheQueue : Prop :=
  ∀ s : State,
    (statusByte s).getLsbD 0 = s.ring.queue.isEmpty ∧
    (statusByte s).getLsbD 1 = decide (s.ring.queue.length = 64) ∧
    (statusByte s).getLsbD 2 = s.bank.modValid ∧
    (statusByte s).getLsbD 3 = false ∧ (statusByte s).getLsbD 4 = false ∧ (statusByte s).getLsbD 5 = false ∧
    (statusByte s).getLsbD 6 = false ∧ (statusByte s).getLsbD 7 = s.bank.errorSticky

/-- INT_N is 0 exactly when the line exists and a record is queued (10_state.md section 6; the level is the spec's
decision D18, the line's presence the parameter of D27). -/
def Obligations.InterruptLineFollowsTheQueue : Prop :=
  ∀ s : State, intN s = !(Config.intPresent && !s.ring.queue.isEmpty)

/-- The ring is a queue of at most 64 records: PUSH appends or, at 64, fails; a FIFO_POP read with no valid cache removes
the oldest; RESET empties; nothing else changes it (20_memory.md section 7; the spec's own inference). -/
def Obligations.RingIsABoundedQueue : Prop :=
  ∀ (i : Instr) (s : State), s.Inv → ∃ t, exec i s = .next t ∧ t.ring.queue = queueAfter i s ∧
    ∀ r, i = .push r → t.out = if s.ring.queue.length < 64 then .pushOk else .pushFail

/-- Over any operations but RESET, the records that were in the ring and those accepted into it are, in that order, the
records that pops loaded into the cache and those still in the ring: none is duplicated, reordered or lost in the ring
(20_memory.md section 7; the spec's own inference). -/
def Obligations.RecordsLeaveInTheOrderAccepted : Prop :=
  ∀ (ops : List Instr) (s : State), s.Inv → .reset ∉ ops →
    ∃ accepted popped t, recordFlow ops s = some (accepted, popped, t) ∧
      s.ring.queue ++ accepted = popped ++ t.ring.queue

/-- Four reads of FIFO_POP serve the four bytes of one record in order, whatever the producer does between them, and leave
the pointer at 0x06: a popped record cannot tear (42_register_file.md, register 0x05; 70_reset_and_hazards.md section 3;
D12, D13, D14). -/
def Obligations.FourReadsServeOneWholeRecord : Prop :=
  ∀ (s : State) (ps1 ps2 ps3 : List Instr),
    s.engine.ptr = 0x05 → s.engine.subIndex = 0 → s.engine.cacheValid = false →
    (∀ i ∈ ps1 ++ ps2 ++ ps3, i.agent = .producer) →
    ∃ outs t, trace ((.busRead :: ps1) ++ (.busRead :: ps2) ++ (.busRead :: ps3) ++ [.busRead]) s = some (outs, t) ∧
      outs.filterMap servedByte = recordBytes (nextRecord s) ∧
      t.engine = { s.engine with
        ptr := 0x06, cacheRecord := nextRecord s, cacheValid := false, cacheOffset := 0 }

/-- A transaction that ends after one to four bytes of FIFO_POP is followed by a new record, never by the rest of the old
one, and has taken exactly one record out of the ring (70_reset_and_hazards.md section 3; D10, D12). -/
def Obligations.PartialPopLosesTheRecord : Prop :=
  ∀ (s : State) (a b : Record) (q : List Record) (k : Nat), s.Inv → s.engine.pointerValid = false →
    s.engine.cacheValid = false → s.ring.queue = a :: b :: q → 1 ≤ k → k ≤ 4 →
    ∃ outs t, trace (pseudoReadReg 0x05 k ++ pseudoPopEvent) s = some (outs, t) ∧
      outs.filterMap servedByte = (recordBytes a).take k ++ recordBytes b ∧ t.ring.queue = q

/-- Three LED bytes in one transaction emit exactly one LedUpdate, at the third, with those bytes in the order π; two bytes
and a STOP emit none and keep the bytes (70_reset_and_hazards.md section 3; D19, D20, D21). -/
def Obligations.ThirdLedByteEmitsOneUpdate : Prop :=
  ∀ (s : State) (x y z : Byte), s.engine.pointerValid = false →
    (∃ t, trace (pseudoSetLed x y z) s =
        some ([.nothing, .nothing, .nothing, ledUpdateOf #v[x, y, z], .nothing], t) ∧
      t.bank = { s.bank with ledState := #v[x, y, z] }) ∧
    (∃ t, trace (pseudoWriteReg 0x08 [x, y]) s = some ([.nothing, .nothing, .nothing, .nothing], t) ∧
      t.bank = { s.bank with ledState := #v[x, y, s.bank.ledState[2]] })

/-- A SET_TSHIGH between the two reads of CLOCK_HIGH gives the old high byte and the new low byte (20_memory.md section 2;
the spec's decision D23). -/
def Obligations.ClockHighReadCanTear : Prop :=
  ∀ (s : State) (new : Half), s.engine.pointerValid = false →
    ∃ t, trace [.busData 0x0A, .busRead, .setTshigh new, .busRead] s =
      some ([.nothing, .served (s.bank.timestampHigh.extractLsb' 8 8), .nothing, .served (new.extractLsb' 0 8)], t)

/-- Slots that hold no record, and the record of an invalid cache, are never observable: states that differ only there
give the same answer, the same output and again such states (10_state.md section 2; the spec's own inference). -/
def Obligations.UnspecifiedContentsAreNeverObservable : Prop :=
  ∀ s s' : State, s.Same s' → SameAnswer (step s) (step s')

/-- Such states look the same at every other observation of 00_scope.md section 7: INT_N and the producer's read ports. -/
def Obligations.SameStatesLookTheSame : Prop :=
  ∀ s s' : State, s.Same s' →
    intN s = intN s' ∧ portCfgFlags s = portCfgFlags s' ∧ portScanRateHz s = portScanRateHz s' ∧
    portLedState s = portLedState s' ∧ portStatus s = portStatus s' ∧ portCount s = portCount s'

/-- A host write of any length: the first byte is the pointer, and every byte after it is stored by the write table at the
location that the ones before it advanced to; the STOP keeps what was stored, and the ring is untouched (41_bus_engine.md
section 2, 30_encoding.md section 6; registers at the addresses of D7, writes by D15, D19, D21, D22). -/
def Obligations.WriteTransactionStoresEveryByte : Prop :=
  ∀ (s : State) (p : Byte) (bytes : List Byte), s.engine.pointerValid = false →
    ∃ outs t, trace (pseudoWriteReg p bytes) s = some (outs, t) ∧
      t.bank = bankAfterBytes bytes (s.engine.latch p) s.bank ∧ t.ring = s.ring ∧ t.engine.pointerValid = false
end

