-- ==== Sys2Proof/Laws/Decode.lean ====
section
/-! SUPPORT. The fields of an encoded operation word, and the rows of the register-address decode. -/

namespace Sys2Proof.Laws

open Sys2Proof

/-- The bits of an operation word: payload below, RSV zero, OP on top. -/
theorem opWord_getLsbD (op : BitVec 4) (payload : BitVec 32) (i : Nat) :
    (opWord op payload).getLsbD i =
      if i < 32 then payload.getLsbD i else if i < 36 then false else op.getLsbD (i - 36) := by
  simp only [opWord, BitVec.getLsbD_append]
  by_cases h1 : i < 32
  · simp [h1]
  · by_cases h2 : i < 36
    · have h3 : i - 32 < 4 := by omega
      simp [h1, h2, h3]
    · have h3 : ¬ i - 32 < 4 := by omega
      simp [h1, h2, h3, show i - 32 - 4 = i - 36 by omega]

/-- A bit outside the payload's `n` low bits is 0. -/
theorem setWidth_getLsbD_high {n : Nat} (b : BitVec n) (i : Nat) (h : n ≤ i) : (b.setWidth 32).getLsbD i = false := by
  simp [BitVec.getLsbD_of_ge b i h]

@[simp] theorem opField_opWord (op : BitVec 4) (payload : BitVec 32) : opField (opWord op payload) = op := by
  apply BitVec.eq_of_getLsbD_eq
  intro i hi
  have h : ¬ 36 + i < 32 := by omega
  simp [opField, opWord_getLsbD, hi, h]

@[simp] theorem rsvField_opWord (op : BitVec 4) (payload : BitVec 32) : rsvField (opWord op payload) = 0 := by
  apply BitVec.eq_of_getLsbD_eq
  intro i hi
  have h : 32 + i < 36 := by omega
  simp [rsvField, opWord_getLsbD, h]

@[simp] theorem payloadField_opWord (op : BitVec 4) (payload : BitVec 32) :
    payloadField (opWord op payload) = payload := by
  apply BitVec.eq_of_getLsbD_eq
  intro i hi
  simp [payloadField, opWord_getLsbD, hi]

/-- A word is its `OP`, its `RSV` and its `PAYLOAD`. -/
theorem opWord_fields (w : OpWord) (h : rsvField w = 0) : opWord (opField w) (payloadField w) = w := by
  apply BitVec.eq_of_getLsbD_eq
  intro i hi
  rw [opWord_getLsbD]
  split_ifs with h1 h2
  · simp [payloadField, h1]
  · have h3 := congrArg (·.getLsbD (i - 32)) h
    simp [rsvField, show i - 32 < 4 by omega, show 32 + (i - 32) = i by omega] at h3
    exact h3.symm
  · simp [opField, show i - 36 < 4 by omega, show 36 + (i - 36) = i by omega]

@[simp] theorem selectReg_deviceId : selectReg 0#8 = .deviceId := by decide
@[simp] theorem selectReg_fwVersion : selectReg 1#8 = .fwVersion := by decide
@[simp] theorem selectReg_status : selectReg 2#8 = .status := by decide
@[simp] theorem selectReg_modMask : selectReg 3#8 = .modMask := by decide
@[simp] theorem selectReg_fifoCount : selectReg 4#8 = .fifoCount := by decide
@[simp] theorem selectReg_fifoPop : selectReg 5#8 = .fifoPop := by decide
@[simp] theorem selectReg_cfgFlags : selectReg 6#8 = .cfgFlags := by decide
@[simp] theorem selectReg_cursor : selectReg 7#8 = .cursor := by decide
@[simp] theorem selectReg_ledState : selectReg 8#8 = .ledState := by decide
@[simp] theorem selectReg_scanRate : selectReg 9#8 = .scanRate := by decide
@[simp] theorem selectReg_clockHigh : selectReg 10#8 = .clockHigh := by decide
@[simp] theorem selectReg_unmapped0B : selectReg 11#8 = .unmapped0B := by decide

theorem selectReg_unmapped0C0F (p : Byte) : selectReg p = .unmapped0C0F ↔ p &&& 0xFC = 0x0C := by revert p; decide

theorem selectReg_unmapped101F (p : Byte) : selectReg p = .unmapped101F ↔ p &&& 0xF0 = 0x10 := by revert p; decide

theorem selectReg_unmapped203F (p : Byte) : selectReg p = .unmapped203F ↔ p &&& 0xE0 = 0x20 := by revert p; decide

theorem selectReg_unmapped407F (p : Byte) : selectReg p = .unmapped407F ↔ p &&& 0xC0 = 0x40 := by revert p; decide

theorem selectReg_unmapped80FF (p : Byte) : selectReg p = .unmapped80FF ↔ p &&& 0x80 = 0x80 := by revert p; decide

theorem selectReg_eq_deviceId (p : Byte) : selectReg p = .deviceId ↔ p = 0#8 := by revert p; decide

theorem selectReg_eq_fwVersion (p : Byte) : selectReg p = .fwVersion ↔ p = 1#8 := by revert p; decide

theorem selectReg_eq_status (p : Byte) : selectReg p = .status ↔ p = 2#8 := by revert p; decide

theorem selectReg_eq_modMask (p : Byte) : selectReg p = .modMask ↔ p = 3#8 := by revert p; decide

theorem selectReg_eq_fifoCount (p : Byte) : selectReg p = .fifoCount ↔ p = 4#8 := by revert p; decide

theorem selectReg_eq_fifoPop (p : Byte) : selectReg p = .fifoPop ↔ p = 5#8 := by revert p; decide

theorem selectReg_eq_cfgFlags (p : Byte) : selectReg p = .cfgFlags ↔ p = 6#8 := by revert p; decide

theorem selectReg_eq_cursor (p : Byte) : selectReg p = .cursor ↔ p = 7#8 := by revert p; decide

theorem selectReg_eq_ledState (p : Byte) : selectReg p = .ledState ↔ p = 8#8 := by revert p; decide

theorem selectReg_eq_scanRate (p : Byte) : selectReg p = .scanRate ↔ p = 9#8 := by revert p; decide

theorem selectReg_eq_clockHigh (p : Byte) : selectReg p = .clockHigh ↔ p = 10#8 := by revert p; decide

theorem selectReg_eq_unmapped0B (p : Byte) : selectReg p = .unmapped0B ↔ p = 11#8 := by revert p; decide

end Sys2Proof.Laws
end

