-- ==== Sys2Proof/Laws/State.lean ====
section
/-! SUPPORT. What each named update does to each field: one lemma per field per update, for simp. -/

namespace Sys2Proof.Machine

open Sys2Proof

/-! ## Engine updates -/

@[simp] theorem Engine.advance_pointerValid (e : Engine) : e.advance.pointerValid = e.pointerValid := by unfold Engine.advance; split <;> rfl
@[simp] theorem Engine.advance_cacheRecord (e : Engine) : e.advance.cacheRecord = e.cacheRecord := by unfold Engine.advance; split <;> rfl
@[simp] theorem Engine.advance_cacheValid (e : Engine) : e.advance.cacheValid = e.cacheValid := by unfold Engine.advance; split <;> rfl
@[simp] theorem Engine.advance_cacheOffset (e : Engine) : e.advance.cacheOffset = e.cacheOffset := by unfold Engine.advance; split <;> rfl
theorem Engine.advance_within (e : Engine) (h : e.subIndex.toNat + 1 < width e.ptr) :
    e.advance = { e with subIndex := e.subIndex + 1 } := by simp [Engine.advance, h]
theorem Engine.advance_across (e : Engine) (h : ¬ e.subIndex.toNat + 1 < width e.ptr) :
    e.advance = { e with subIndex := 0, ptr := e.ptr + 1 } := by simp [Engine.advance, h]
@[simp] theorem Engine.latch_ptr (e : Engine) (p : Byte) : (e.latch p).ptr = p := rfl
@[simp] theorem Engine.latch_subIndex (e : Engine) (p : Byte) : (e.latch p).subIndex = 0 := rfl
@[simp] theorem Engine.latch_pointerValid (e : Engine) (p : Byte) : (e.latch p).pointerValid = true := rfl
@[simp] theorem Engine.latch_cacheRecord (e : Engine) (p : Byte) : (e.latch p).cacheRecord = e.cacheRecord := rfl
@[simp] theorem Engine.latch_cacheValid (e : Engine) (p : Byte) : (e.latch p).cacheValid = e.cacheValid := rfl
@[simp] theorem Engine.latch_cacheOffset (e : Engine) (p : Byte) : (e.latch p).cacheOffset = e.cacheOffset := rfl
@[simp] theorem Engine.endTransaction_ptr (e : Engine) : (e.endTransaction).ptr = e.ptr := rfl
@[simp] theorem Engine.endTransaction_subIndex (e : Engine) : (e.endTransaction).subIndex = 0 := rfl
@[simp] theorem Engine.endTransaction_pointerValid (e : Engine) : (e.endTransaction).pointerValid = false := rfl
@[simp] theorem Engine.endTransaction_cacheRecord (e : Engine) : (e.endTransaction).cacheRecord = e.cacheRecord := rfl
@[simp] theorem Engine.endTransaction_cacheValid (e : Engine) : (e.endTransaction).cacheValid = false := rfl
@[simp] theorem Engine.endTransaction_cacheOffset (e : Engine) : (e.endTransaction).cacheOffset = 0 := rfl
@[simp] theorem Engine.loadCache_ptr (e : Engine) (r : Record) : (e.loadCache r).ptr = e.ptr := rfl
@[simp] theorem Engine.loadCache_subIndex (e : Engine) (r : Record) : (e.loadCache r).subIndex = e.subIndex := rfl
@[simp] theorem Engine.loadCache_pointerValid (e : Engine) (r : Record) : (e.loadCache r).pointerValid = e.pointerValid := rfl
@[simp] theorem Engine.loadCache_cacheRecord (e : Engine) (r : Record) : (e.loadCache r).cacheRecord = r := rfl
@[simp] theorem Engine.loadCache_cacheValid (e : Engine) (r : Record) : (e.loadCache r).cacheValid = true := rfl
@[simp] theorem Engine.loadCache_cacheOffset (e : Engine) (r : Record) : (e.loadCache r).cacheOffset = 0 := rfl
@[simp] theorem Engine.passCached_ptr (e : Engine) : e.passCached.ptr = e.ptr := by unfold Engine.passCached; split <;> rfl
@[simp] theorem Engine.passCached_subIndex (e : Engine) : e.passCached.subIndex = e.subIndex := by unfold Engine.passCached; split <;> rfl
@[simp] theorem Engine.passCached_pointerValid (e : Engine) : e.passCached.pointerValid = e.pointerValid := by unfold Engine.passCached; split <;> rfl
@[simp] theorem Engine.passCached_cacheRecord (e : Engine) : e.passCached.cacheRecord = e.cacheRecord := by unfold Engine.passCached; split <;> rfl
theorem Engine.passCached_last (e : Engine) (h : e.cacheOffset = 3) :
    e.passCached = { e with cacheValid := false, cacheOffset := 0 } := by simp [Engine.passCached, h]
theorem Engine.passCached_more (e : Engine) (h : e.cacheOffset ≠ 3) :
    e.passCached = { e with cacheOffset := e.cacheOffset + 1 } := by rw [Engine.passCached, if_neg h]

/-! ## Ring updates -/

@[simp] theorem Ring.store_slots (r : Ring) (rec : Record) :
    (r.store rec).slots = r.slots.set (slotOf r.head).val rec (slotOf r.head).isLt := by
  simp only [Ring.store]; split <;> rfl
@[simp] theorem Ring.store_head (r : Ring) (rec : Record) : (r.store rec).head = r.head + 1 := by
  simp only [Ring.store]; split <;> rfl
@[simp] theorem Ring.store_tail (r : Ring) (rec : Record) : (r.store rec).tail = r.tail := by
  simp only [Ring.store]; split <;> rfl
@[simp] theorem Ring.store_full (r : Ring) (rec : Record) :
    (r.store rec).full = (decide (r.head + 1 = r.tail) || r.full) := by
  simp only [Ring.store]; split <;> simp_all
@[simp] theorem Ring.drop_slots (r : Ring) : r.drop.slots = r.slots := rfl
@[simp] theorem Ring.drop_head (r : Ring) : r.drop.head = r.head := rfl
@[simp] theorem Ring.drop_tail (r : Ring) : r.drop.tail = r.tail + 1 := rfl
@[simp] theorem Ring.drop_full (r : Ring) : r.drop.full = false := rfl

/-! ## State updates -/

@[simp] theorem State.closeEvent_ring (s : State) (o : Output) : (s.closeEvent o).ring = s.ring := rfl
@[simp] theorem State.closeEvent_bank (s : State) (o : Output) : (s.closeEvent o).bank = s.bank := rfl
@[simp] theorem State.closeEvent_engine (s : State) (o : Output) : (s.closeEvent o).engine = s.engine.advance := rfl
@[simp] theorem State.closeEvent_event (s : State) (o : Output) : (s.closeEvent o).event = none := rfl
@[simp] theorem State.closeEvent_input (s : State) (o : Output) : (s.closeEvent o).input = s.input := rfl
@[simp] theorem State.closeEvent_out (s : State) (o : Output) : (s.closeEvent o).out = o := rfl
@[simp] theorem State.fillCache_bank (s : State) : s.fillCache.bank = s.bank := by
  unfold State.fillCache; split <;> [rfl; (split <;> rfl)]
@[simp] theorem State.fillCache_event (s : State) : s.fillCache.event = s.event := by
  unfold State.fillCache; split <;> [rfl; (split <;> rfl)]
@[simp] theorem State.fillCache_input (s : State) : s.fillCache.input = s.input := by
  unfold State.fillCache; split <;> [rfl; (split <;> rfl)]
@[simp] theorem State.fillCache_out (s : State) : s.fillCache.out = s.out := by
  unfold State.fillCache; split <;> [rfl; (split <;> rfl)]
@[simp] theorem stopTransaction_ring (s : State) : (stopTransaction s).ring = s.ring := rfl
@[simp] theorem stopTransaction_bank (s : State) : (stopTransaction s).bank = s.bank := rfl
@[simp] theorem stopTransaction_engine (s : State) : (stopTransaction s).engine = s.engine.endTransaction := rfl
@[simp] theorem stopTransaction_event (s : State) : (stopTransaction s).event = none := rfl
@[simp] theorem stopTransaction_input (s : State) : (stopTransaction s).input = s.input := rfl
@[simp] theorem stopTransaction_out (s : State) : (stopTransaction s).out = .nothing := rfl
@[simp] theorem idleState_ring (s : State) : (idleState s).ring = s.ring := rfl
@[simp] theorem idleState_bank (s : State) : (idleState s).bank = s.bank := rfl
@[simp] theorem idleState_engine (s : State) : (idleState s).engine = s.engine := rfl
@[simp] theorem idleState_event (s : State) : (idleState s).event = s.event := rfl
@[simp] theorem idleState_input (s : State) : (idleState s).input = s.input := rfl
@[simp] theorem idleState_out (s : State) : (idleState s).out = .nothing := rfl
@[simp] theorem presentCode_op_ring (s : State) (w : OpWord) : (presentCode (.op w) s).ring = s.ring := rfl
@[simp] theorem presentCode_op_bank (s : State) (w : OpWord) : (presentCode (.op w) s).bank = s.bank := rfl
@[simp] theorem presentCode_op_engine (s : State) (w : OpWord) : (presentCode (.op w) s).engine = s.engine := rfl
@[simp] theorem presentCode_op_event (s : State) (w : OpWord) : (presentCode (.op w) s).event = none := rfl
@[simp] theorem presentCode_op_input (s : State) (w : OpWord) : (presentCode (.op w) s).input = w :: s.input := rfl
@[simp] theorem presentCode_op_out (s : State) (w : OpWord) : (presentCode (.op w) s).out = s.out := rfl
@[simp] theorem presentCode_regSel_ring (s : State) (p : Byte) :
    (presentCode (.regSel p) s).ring = s.ring := rfl
@[simp] theorem presentCode_regSel_bank (s : State) (p : Byte) :
    (presentCode (.regSel p) s).bank = s.bank := rfl
@[simp] theorem presentCode_regSel_engine (s : State) (p : Byte) :
    (presentCode (.regSel p) s).engine = { s.engine with ptr := p, subIndex := 0 } := rfl
@[simp] theorem presentCode_regSel_event (s : State) (p : Byte) :
    (presentCode (.regSel p) s).event = some .read := rfl
@[simp] theorem presentCode_regSel_input (s : State) (p : Byte) :
    (presentCode (.regSel p) s).input = s.input := rfl
@[simp] theorem presentCode_regSel_out (s : State) (p : Byte) :
    (presentCode (.regSel p) s).out = s.out := rfl

/-! ## Reset -/

@[simp] theorem Ring.reset_head : Ring.reset.head = 0 := rfl
@[simp] theorem Ring.reset_tail : Ring.reset.tail = 0 := rfl
@[simp] theorem Ring.reset_full : Ring.reset.full = false := rfl
@[simp] theorem Bank.reset_errorSticky : Bank.reset.errorSticky = false := rfl
@[simp] theorem Bank.reset_modValid : Bank.reset.modValid = false := rfl
@[simp] theorem Bank.reset_modMask : Bank.reset.modMask = 0x00 := rfl
@[simp] theorem Bank.reset_cfgFlags : Bank.reset.cfgFlags = 0x00 := rfl
@[simp] theorem Bank.reset_cursorState : Bank.reset.cursorState = 0x00 := rfl
@[simp] theorem Bank.reset_ledState : Bank.reset.ledState = #v[0x00, 0x00, 0x00] := rfl
@[simp] theorem Bank.reset_scanRateHz : Bank.reset.scanRateHz = Config.scanRateReset := rfl
@[simp] theorem Bank.reset_timestampHigh : Bank.reset.timestampHigh = 0x0000 := rfl
@[simp] theorem Engine.reset_ptr : Engine.reset.ptr = 0x00 := rfl
@[simp] theorem Engine.reset_subIndex : Engine.reset.subIndex = 0 := rfl
@[simp] theorem Engine.reset_pointerValid : Engine.reset.pointerValid = false := rfl
@[simp] theorem Engine.reset_cacheRecord : Engine.reset.cacheRecord = Config.resetCacheRecord := rfl
@[simp] theorem Engine.reset_cacheValid : Engine.reset.cacheValid = false := rfl
@[simp] theorem Engine.reset_cacheOffset : Engine.reset.cacheOffset = 0 := rfl
@[simp] theorem State.reset_ring : State.reset.ring = Ring.reset := rfl
@[simp] theorem State.reset_bank : State.reset.bank = Bank.reset := rfl
@[simp] theorem State.reset_engine : State.reset.engine = Engine.reset := rfl
@[simp] theorem State.reset_event : State.reset.event = none := rfl
@[simp] theorem State.reset_input : State.reset.input = [] := rfl
@[simp] theorem State.reset_out : State.reset.out = .nothing := rfl

end Sys2Proof.Machine
end

