-- ==== Sys2Proof/Laws/Ops.lean ====
section
/-! SUPPORT. What each shared operation can do, said once. -/

namespace Sys2Proof.Machine

open Sys2Proof

/-- Everything a byte event can answer. -/
theorem byteEventAt_cases (rd : ReadForm) (wr : WriteForm) (s : State) :
    (s.event = none ∧ byteEventAt rd wr s = .next { s with out := .nothing }) ∨
    (s.event = some .read ∧ byteEventAt rd wr s = .next ((rd s).2.closeEvent (.served (rd s).1))) ∨
    (∃ b, s.event = some (.write b) ∧ byteEventAt rd wr s = .next ((wr b s).2.closeEvent (wr b s).1)) := by
  rcases h : s.event with _ | ⟨_ | b⟩ <;> simp [byteEventAt, h]

theorem byteEventAt_read {rd : ReadForm} {wr : WriteForm} {s : State} (h : s.event = some .read) :
    byteEventAt rd wr s = .next ((rd s).2.closeEvent (.served (rd s).1)) := by simp [byteEventAt, h]

theorem byteEventAt_write {rd : ReadForm} {wr : WriteForm} {s : State} {b : Byte} (h : s.event = some (.write b)) :
    byteEventAt rd wr s = .next ((wr b s).2.closeEvent (wr b s).1) := by simp [byteEventAt, h]

theorem byteEventAt_idle {rd : ReadForm} {wr : WriteForm} {s : State} (h : s.event = none) :
    byteEventAt rd wr s = .next { s with out := .nothing } := by simp [byteEventAt, h]

@[simp] theorem plainRead_apply (byte : State → Byte) (s : State) : plainRead byte s = (byte s, s) := rfl

@[simp] theorem discardWrite_apply (b : Byte) (s : State) : discardWrite b s = (.nothing, s) := rfl

@[simp] theorem bankWrite_apply (store : Byte → Bank → Bank) (b : Byte) (s : State) :
    bankWrite store b s = (.nothing, { s with bank := store b s.bank }) := rfl

/-- `RingPop` answers NONE exactly on an empty ring. -/
theorem Ring.pop_empty {r : Ring} (h : r.empty = true) : r.pop = none := by simp [Ring.pop, h]

theorem Ring.pop_nonempty {r : Ring} (h : r.empty = false) : r.pop = some (r.oldest, r.drop) := by simp [Ring.pop, h]

/-- Everything filling the cache can do. -/
theorem State.fillCache_cases (s : State) :
    (s.engine.cacheValid = true ∧ s.fillCache = s) ∨
    (s.engine.cacheValid = false ∧ s.ring.empty = false ∧
      s.fillCache = { s with ring := s.ring.drop, engine := s.engine.loadCache s.ring.oldest }) ∨
    (s.engine.cacheValid = false ∧ s.ring.empty = true ∧
      s.fillCache = { s with engine := s.engine.loadCache (nopRecord s.bank.modMask) }) := by
  cases hv : s.engine.cacheValid with
  | true => simp [State.fillCache, hv]
  | false =>
    cases he : s.ring.empty with
    | true => simp [State.fillCache, hv, Ring.pop_empty he]
    | false => simp [State.fillCache, hv, Ring.pop_nonempty he]

/-- Everything `Advance()` can do. -/
theorem Engine.advance_cases (e : Engine) :
    (e.subIndex.toNat + 1 < width e.ptr ∧ e.advance = { e with subIndex := e.subIndex + 1 }) ∨
    (¬ e.subIndex.toNat + 1 < width e.ptr ∧ e.advance = { e with subIndex := 0, ptr := e.ptr + 1 }) := by
  by_cases h : e.subIndex.toNat + 1 < width e.ptr
  · exact .inl ⟨h, e.advance_within h⟩
  · exact .inr ⟨h, e.advance_across h⟩

/-- Everything a width can be. -/
theorem width_cases (p : Byte) :
    (p = 0x01 ∧ width p = 2) ∨ (p = 0x05 ∧ width p = 4) ∨ (p = 0x08 ∧ width p = 3) ∨ (p = 0x0A ∧ width p = 2) ∨
      width p = 1 := by
  unfold width; split_ifs <;> simp_all

@[simp] theorem width_fwVersion : width 1#8 = 2 := by decide

@[simp] theorem width_fifoPop : width 5#8 = 4 := by decide

@[simp] theorem width_ledState : width 8#8 = 3 := by decide

@[simp] theorem width_clockHigh : width 10#8 = 2 := by decide

theorem width_pos (p : Byte) : 0 < width p := by
  rcases width_cases p with h | h | h | h | h <;> omega

theorem width_le (p : Byte) : width p ≤ 4 := by
  rcases width_cases p with h | h | h | h | h <;> omega

/-- The advanced location is again a location of the register space. -/
theorem Engine.advance_in_width (e : Engine) : e.advance.subIndex.toNat < width e.advance.ptr := by
  have hw := width_le e.ptr
  rcases e.advance_cases with ⟨h, ha⟩ | ⟨_, ha⟩ <;> rw [ha]
  · have : (e.subIndex + 1).toNat = e.subIndex.toNat + 1 := by rw [BitVec.toNat_add]; simp; omega
    show (e.subIndex + 1).toNat < width e.ptr
    omega
  · exact width_pos _

/-- `setLed` stores at the byte's position and nowhere else. -/
theorem setLed_eq (led : Vector Byte 3) (s : BytePos) (b : Byte) (hs : s ≠ 3) :
    setLed led s b = #v[if s = 0 then b else led[0], if s = 1 then b else led[1], if s = 2 then b else led[2]] := by
  have hs' : s = 0 ∨ s = 1 ∨ s = 2 := by revert hs; revert s; decide
  rcases hs' with rfl | rfl | rfl <;> (ext i hi; interval_cases i <;> simp [setLed])

/-- The row that the pointer matches is the meaning of the instruction it decodes to. -/
theorem exec_decodeReg (s : State) : exec (decodeReg s.engine.ptr) s = pointedRow s := by
  unfold decodeReg pointedRow
  cases selectReg s.engine.ptr <;> rfl

/-- Everything a step can do. -/
theorem step_cases (s : State) :
    ((∃ ev, s.event = some ev) ∧ step s = exec (decodeReg s.engine.ptr) s) ∨
    (s.event = none ∧ s.input = [] ∧ step s = .next (idleState s)) ∨
    (∃ w rest i, s.event = none ∧ s.input = w :: rest ∧ decodeOp w = .instr i ∧
      step s = exec i { s with input := rest }) ∨
    (∃ w rest why, s.event = none ∧ s.input = w :: rest ∧ decodeOp w = .reserved why ∧
      step s = .refused (.reservedEncoding why)) := by
  rcases he : s.event with _ | ev
  · rcases hi : s.input with _ | ⟨w, rest⟩
    · exact .inr (.inl ⟨rfl, rfl, by simp [step, fetch, he, hi]⟩)
    · rcases hd : decodeOp w with i | why
      · exact .inr (.inr (.inl ⟨w, rest, i, rfl, rfl, hd, by simp [step, fetch, he, hi, hd]⟩))
      · exact .inr (.inr (.inr ⟨w, rest, why, rfl, rfl, hd, by simp [step, fetch, he, hi, hd]⟩))
  · exact .inl ⟨⟨ev, rfl⟩, by simp [step, fetch, he]⟩

end Sys2Proof.Machine
end

