-- ==== Sys2Proof/Laws/Exec.lean ====
section
/-! SUPPORT. Everything an instruction can do, said once: the register-select rows by the row, the operations by their
answers. -/

namespace Sys2Proof.Machine

open Sys2Proof

/-- What the register-select row `r` can make of `s`. -/
inductive RowEffect (r : RegSel) (s : State) : State → Prop where
  /-- No byte event is under way. -/
  | idle (h : s.event = none) : RowEffect r s { s with out := .nothing }
  /-- A read with no side effect. -/
  | serve (b : Byte) (h : s.event = some .read) (hr : r ≠ .fifoPop) : RowEffect r s (s.closeEvent (.served b))
  /-- A read of FIFO_POP. -/
  | pop (h : s.event = some .read) (hr : r = .fifoPop) :
    RowEffect r s ((readFifoPop s).2.closeEvent (.served (readFifoPop s).1))
  /-- A discarded write. -/
  | discard (b : Byte) (h : s.event = some (.write b)) : RowEffect r s (s.closeEvent .nothing)
  /-- A write of MOD_MASK. -/
  | modMask (b : Byte) (h : s.event = some (.write b)) (hr : r = .modMask) :
    RowEffect r s (State.closeEvent { s with bank := { s.bank with modMask := b } } .nothing)
  /-- A write of CFG_FLAGS. -/
  | cfgFlags (b : Byte) (h : s.event = some (.write b)) (hr : r = .cfgFlags) :
    RowEffect r s (State.closeEvent { s with bank := { s.bank with cfgFlags := b } } .nothing)
  /-- A write of SCAN_RATE. -/
  | scanRate (b : Byte) (h : s.event = some (.write b)) (hr : r = .scanRate) :
    RowEffect r s (State.closeEvent { s with bank := { s.bank with scanRateHz := b.setWidth 16 } } .nothing)
  /-- A write of LED_STATE. -/
  | ledState (b : Byte) (h : s.event = some (.write b)) (hr : r = .ledState) :
    RowEffect r s ((writeLedState b s).2.closeEvent (writeLedState b s).1)

/-- No row changes `pointerValid`. -/
theorem RowEffect.pointerValid_eq {r : RegSel} {s t : State} (h : RowEffect r s t) :
    t.engine.pointerValid = s.engine.pointerValid := by
  cases h with
  | idle h => rfl
  | pop h hr =>
    rcases s.fillCache_cases with ⟨_, e⟩ | ⟨_, _, e⟩ | ⟨_, _, e⟩ <;> simp [readFifoPop, e]
  | _ => simp [writeLedState]

/-- A row with a plain read and a discarded write. -/
theorem RowEffect.of_readOnly {r : RegSel} (hr : r ≠ .fifoPop) (byte : State → Byte) (s : State) :
    ∃ t, byteEventAt (plainRead byte) discardWrite s = .next t ∧ RowEffect r s t := by
  rcases byteEventAt_cases (plainRead byte) discardWrite s with ⟨h, e⟩ | ⟨h, e⟩ | ⟨b, h, e⟩
  · exact ⟨_, e, .idle h⟩
  · exact ⟨_, e, .serve _ h hr⟩
  · exact ⟨_, e, .discard b h⟩

/-- Every row answers a next state, and this is what it can be. -/
theorem exec_row_effect (r : RegSel) (p : Byte) (s : State) :
    ∃ t, exec (r.instr p) s = .next t ∧ RowEffect r s t := by
  cases r
  case fifoPop =>
    rcases byteEventAt_cases readFifoPop discardWrite s with ⟨h, e⟩ | ⟨h, e⟩ | ⟨b, h, e⟩
    · exact ⟨_, e, .idle h⟩
    · exact ⟨_, e, .pop h rfl⟩
    · exact ⟨_, e, .discard b h⟩
  case modMask =>
    rcases byteEventAt_cases readModMask writeModMask s with ⟨h, e⟩ | ⟨h, e⟩ | ⟨b, h, e⟩
    · exact ⟨_, e, .idle h⟩
    · exact ⟨_, e, .serve _ h (by decide)⟩
    · exact ⟨_, e, .modMask b h rfl⟩
  case cfgFlags =>
    rcases byteEventAt_cases readCfgFlags writeCfgFlags s with ⟨h, e⟩ | ⟨h, e⟩ | ⟨b, h, e⟩
    · exact ⟨_, e, .idle h⟩
    · exact ⟨_, e, .serve _ h (by decide)⟩
    · exact ⟨_, e, .cfgFlags b h rfl⟩
  case scanRate =>
    rcases byteEventAt_cases readScanRate writeScanRate s with ⟨h, e⟩ | ⟨h, e⟩ | ⟨b, h, e⟩
    · exact ⟨_, e, .idle h⟩
    · exact ⟨_, e, .serve _ h (by decide)⟩
    · exact ⟨_, e, .scanRate b h rfl⟩
  case ledState =>
    rcases byteEventAt_cases readLedState writeLedState s with ⟨h, e⟩ | ⟨h, e⟩ | ⟨b, h, e⟩
    · exact ⟨_, e, .idle h⟩
    · exact ⟨_, e, .serve _ h (by decide)⟩
    · exact ⟨_, e, .ledState b h rfl⟩
  all_goals exact RowEffect.of_readOnly (by decide) _ s

/-- Every byte event of the bus answers a next state, by the row that the pointer matches. -/
theorem byteEvent_effect (ev : ByteEvent) (s : State) :
    ∃ t, byteEvent ev s = .next t ∧ RowEffect (selectReg s.engine.ptr) { s with event := some ev } t := by
  have h := exec_row_effect (selectReg s.engine.ptr) s.engine.ptr { s with event := some ev }
  rwa [← decodeReg, show decodeReg s.engine.ptr = decodeReg ({ s with event := some ev } : State).engine.ptr from rfl,
    exec_decodeReg] at h

/-- BUS_DATA with a latched pointer is a byte event. -/
theorem execBusData_data (b : Byte) (s : State) (h : s.engine.pointerValid = true) :
    exec (.busData b) s = byteEvent (.write b) s := by simp [exec, execBusData, h]

/-- BUS_DATA with no latched pointer latches its byte. -/
theorem execBusData_pointer (b : Byte) (s : State) (h : s.engine.pointerValid = false) :
    exec (.busData b) s = .next { s with engine := s.engine.latch b, event := none, out := .nothing } := by
  simp [exec, execBusData, h]

/-- PUSH on a full ring. -/
theorem execPush_full (r : Record) (s : State) (h : s.ring.full = true) :
    exec (.push r) s = .next { s with bank := { s.bank with errorSticky := true }, out := .pushFail } := by
  simp [exec, execPush, h]

/-- PUSH on a ring that is not full. -/
theorem execPush_room (r : Record) (s : State) (h : s.ring.full = false) :
    exec (.push r) s = .next { s with ring := s.ring.store r, out := .pushOk } := by simp [exec, execPush, h]

/-- An instruction is an operation or a register-select row. -/
theorem instr_cases (i : Instr) :
    (∃ b, i = .busData b) ∨ i = .busRead ∨ i = .busStop ∨ i = .busAbort ∨ (∃ r, i = .push r) ∨
    (∃ m, i = .setModmask m) ∨ (∃ c, i = .setCursor c) ∨ (∃ t, i = .setTshigh t) ∨ (∃ v, i = .setModvalid v) ∨
    i = .reset ∨ ∃ (r : RegSel) (p : Byte), i = r.instr p := by
  cases i <;> simp only [reduceCtorEq, false_or, exists_const, Instr.busData.injEq, Instr.push.injEq,
    Instr.setModmask.injEq, Instr.setCursor.injEq, Instr.setTshigh.injEq, Instr.setModvalid.injEq, exists_eq', true_or,
    or_true]
  case regDeviceId => exact ⟨.deviceId, 0, rfl⟩
  case regFwVersion => exact ⟨.fwVersion, 0, rfl⟩
  case regStatus => exact ⟨.status, 0, rfl⟩
  case regModMask => exact ⟨.modMask, 0, rfl⟩
  case regFifoCount => exact ⟨.fifoCount, 0, rfl⟩
  case regFifoPop => exact ⟨.fifoPop, 0, rfl⟩
  case regCfgFlags => exact ⟨.cfgFlags, 0, rfl⟩
  case regCursor => exact ⟨.cursor, 0, rfl⟩
  case regLedState => exact ⟨.ledState, 0, rfl⟩
  case regScanRate => exact ⟨.scanRate, 0, rfl⟩
  case regClockHigh => exact ⟨.clockHigh, 0, rfl⟩
  case regUnmapped0B => exact ⟨.unmapped0B, 0, rfl⟩
  case regUnmapped0C0F p => exact ⟨.unmapped0C0F, p, rfl⟩
  case regUnmapped101F p => exact ⟨.unmapped101F, p, rfl⟩
  case regUnmapped203F p => exact ⟨.unmapped203F, p, rfl⟩
  case regUnmapped407F p => exact ⟨.unmapped407F, p, rfl⟩
  case regUnmapped80FF p => exact ⟨.unmapped80FF, p, rfl⟩

end Sys2Proof.Machine
end

