-- ==== Sys2Proof/Laws/PerInstr.lean ====
section
/-! SUPPORT. Per-instruction facts about instructions as syntax. `RowMatch`: the encoding of a well-formed instruction
matches its row of spec/opcode_table.json, match under mask. -/

namespace Sys2Proof.Laws

open Sys2Proof

/-- A row of the opcode table: the decode level, the mask and the match. -/
inductive TableRow where
  | op (mask value : OpWord)
  | regSel (mask value : Byte)

/-- A code matches a row: same level, and the masked bits are the row's. -/
def TableRow.matchesCode : TableRow → Code → Bool
  | .op mask value, .op w => w &&& mask == value
  | .regSel mask value, .regSel p => p &&& mask == value
  | .op _ _, .regSel _ => false
  | .regSel _ _, .op _ => false

/-- The row of spec/opcode_table.json that an instruction stands for. -/
def tableRow : Instr → TableRow
  | .busData _ => .op 0xFFFFFFFF00 0x0000000000
  | .busRead => .op 0xFFFFFFFFFF 0x1000000000
  | .busStop => .op 0xFFFFFFFFFF 0x2000000000
  | .busAbort => .op 0xFFFFFFFFFF 0x3000000000
  | .push _ => .op 0xFF00000000 0x8000000000
  | .setModmask _ => .op 0xFFFFFFFF00 0x9000000000
  | .setCursor _ => .op 0xFFFFFFFF00 0xA000000000
  | .setTshigh _ => .op 0xFFFFFF0000 0xB000000000
  | .setModvalid _ => .op 0xFFFFFFFFFE 0xC000000000
  | .reset => .op 0xFFFFFFFFFF 0xF000000000
  | .regDeviceId => .regSel 0xFF 0x00
  | .regFwVersion => .regSel 0xFF 0x01
  | .regStatus => .regSel 0xFF 0x02
  | .regModMask => .regSel 0xFF 0x03
  | .regFifoCount => .regSel 0xFF 0x04
  | .regFifoPop => .regSel 0xFF 0x05
  | .regCfgFlags => .regSel 0xFF 0x06
  | .regCursor => .regSel 0xFF 0x07
  | .regLedState => .regSel 0xFF 0x08
  | .regScanRate => .regSel 0xFF 0x09
  | .regClockHigh => .regSel 0xFF 0x0A
  | .regUnmapped0B => .regSel 0xFF 0x0B
  | .regUnmapped0C0F _ => .regSel 0xFC 0x0C
  | .regUnmapped101F _ => .regSel 0xF0 0x10
  | .regUnmapped203F _ => .regSel 0xE0 0x20
  | .regUnmapped407F _ => .regSel 0xC0 0x40
  | .regUnmapped80FF _ => .regSel 0x80 0x80

/-- The encoding of a well-formed instruction matches its row of the opcode table. -/
def RowMatch.Statement (i : Instr) : Prop := i.wellFormed = true → (tableRow i).matchesCode (encode i) = true

theorem RowMatch.busData (b : Byte) : RowMatch.Statement (.busData b) := by
  intro _
  simp only [tableRow, encode, TableRow.matchesCode, beq_iff_eq]
  apply BitVec.eq_of_getLsbD_eq
  intro i hi
  rw [BitVec.getLsbD_and, opWord_getLsbD]
  interval_cases i <;> simp

theorem RowMatch.busRead : RowMatch.Statement .busRead := fun _ => by decide

theorem RowMatch.busStop : RowMatch.Statement .busStop := fun _ => by decide

theorem RowMatch.busAbort : RowMatch.Statement .busAbort := fun _ => by decide

theorem RowMatch.push (r : Record) : RowMatch.Statement (.push r) := by
  intro _
  simp only [tableRow, encode, TableRow.matchesCode, beq_iff_eq]
  apply BitVec.eq_of_getLsbD_eq
  intro i hi
  rw [BitVec.getLsbD_and, opWord_getLsbD]
  interval_cases i <;> simp

theorem RowMatch.setModmask (m : Byte) : RowMatch.Statement (.setModmask m) := by
  intro _
  simp only [tableRow, encode, TableRow.matchesCode, beq_iff_eq]
  apply BitVec.eq_of_getLsbD_eq
  intro i hi
  rw [BitVec.getLsbD_and, opWord_getLsbD]
  interval_cases i <;> simp

theorem RowMatch.setCursor (c : Byte) : RowMatch.Statement (.setCursor c) := by
  intro _
  simp only [tableRow, encode, TableRow.matchesCode, beq_iff_eq]
  apply BitVec.eq_of_getLsbD_eq
  intro i hi
  rw [BitVec.getLsbD_and, opWord_getLsbD]
  interval_cases i <;> simp

theorem RowMatch.setTshigh (t : Half) : RowMatch.Statement (.setTshigh t) := by
  intro _
  simp only [tableRow, encode, TableRow.matchesCode, beq_iff_eq]
  apply BitVec.eq_of_getLsbD_eq
  intro i hi
  rw [BitVec.getLsbD_and, opWord_getLsbD]
  interval_cases i <;> simp

theorem RowMatch.setModvalid (v : Bool) : RowMatch.Statement (.setModvalid v) := by
  intro _; cases v <;> decide

theorem RowMatch.reset : RowMatch.Statement .reset := fun _ => by decide

theorem RowMatch.regDeviceId : RowMatch.Statement .regDeviceId := fun _ => by decide

theorem RowMatch.regFwVersion : RowMatch.Statement .regFwVersion := fun _ => by decide

theorem RowMatch.regStatus : RowMatch.Statement .regStatus := fun _ => by decide

theorem RowMatch.regModMask : RowMatch.Statement .regModMask := fun _ => by decide

theorem RowMatch.regFifoCount : RowMatch.Statement .regFifoCount := fun _ => by decide

theorem RowMatch.regFifoPop : RowMatch.Statement .regFifoPop := fun _ => by decide

theorem RowMatch.regCfgFlags : RowMatch.Statement .regCfgFlags := fun _ => by decide

theorem RowMatch.regCursor : RowMatch.Statement .regCursor := fun _ => by decide

theorem RowMatch.regLedState : RowMatch.Statement .regLedState := fun _ => by decide

theorem RowMatch.regScanRate : RowMatch.Statement .regScanRate := fun _ => by decide

theorem RowMatch.regClockHigh : RowMatch.Statement .regClockHigh := fun _ => by decide

theorem RowMatch.regUnmapped0B : RowMatch.Statement .regUnmapped0B := fun _ => by decide

theorem RowMatch.regUnmapped0C0F (p : Byte) : RowMatch.Statement (.regUnmapped0C0F p) := fun h => h

theorem RowMatch.regUnmapped101F (p : Byte) : RowMatch.Statement (.regUnmapped101F p) := fun h => h

theorem RowMatch.regUnmapped203F (p : Byte) : RowMatch.Statement (.regUnmapped203F p) := fun h => h

theorem RowMatch.regUnmapped407F (p : Byte) : RowMatch.Statement (.regUnmapped407F p) := fun h => h

theorem RowMatch.regUnmapped80FF (p : Byte) : RowMatch.Statement (.regUnmapped80FF p) := fun h => h

end Sys2Proof.Laws
end

