-- ==== Sys2Proof/Laws/Ring.lean ====
section
/-! SUPPORT. The ring as a queue: its length, its emptiness, and what storing and dropping do to it. -/

namespace Sys2Proof.Machine

open Sys2Proof

theorem Ring.count_le (r : Ring) : r.count ≤ 64 := by
  unfold Ring.count
  split
  · exact le_refl _
  · exact le_of_lt (r.head - r.tail).isLt

@[simp] theorem Ring.queue_length (r : Ring) : r.queue.length = r.count := by simp [Ring.queue]

theorem Ring.count_full {r : Ring} (h : r.full = true) : r.count = 64 := by simp [Ring.count, h]

theorem Ring.count_not_full {r : Ring} (h : r.full = false) : r.count = (r.head - r.tail).toNat := by
  simp [Ring.count, h]

theorem Ring.count_lt_of_not_full {r : Ring} (h : r.full = false) : r.count < 64 := by
  rw [Ring.count_not_full h]; exact (r.head - r.tail).isLt

theorem Ring.empty_iff (r : Ring) : r.empty = true ↔ r.count = 0 := by
  cases h : r.full with
  | true => simp [Ring.empty, Ring.count_full h, h]
  | false =>
    rw [Ring.count_not_full h]
    simp only [Ring.empty, h, Bool.not_false, Bool.true_and, beq_iff_eq]
    constructor <;> (intro _; bv_omega)

theorem Ring.queue_isEmpty (r : Ring) : r.queue.isEmpty = r.empty := by
  rw [Bool.eq_iff_iff, Ring.empty_iff, List.isEmpty_iff, ← List.length_eq_zero_iff, Ring.queue_length]

/-- The k-th queued record. -/
theorem Ring.queue_getElem (r : Ring) (k : Nat) (h : k < r.queue.length) :
    r.queue[k] = r.slots[slotOf (r.tail + BitVec.ofNat 6 k)] := by simp [Ring.queue]

/-- Storing into a ring that is not full appends to its queue. -/
theorem Ring.store_queue (r : Ring) (rec : Record) (h : r.full = false) :
    (r.store rec).queue = r.queue ++ [rec] := by
  have hc := Ring.count_not_full h
  have hlt := Ring.count_lt_of_not_full h
  have hcount : (r.store rec).count = r.count + 1 := by
    by_cases hm : r.head + 1 = r.tail
    · rw [Ring.count_full (by rw [Ring.store_full, decide_eq_true hm, Bool.true_or]), hc]; bv_omega
    · rw [Ring.count_not_full (by rw [Ring.store_full, decide_eq_false hm, h, Bool.or_false]), hc]
      simp only [Ring.store_head, Ring.store_tail]; bv_omega
  apply List.ext_getElem
  · simp [hcount]
  · intro k hk _
    rw [Ring.queue_getElem]
    simp only [Ring.store_slots, Ring.store_tail, Fin.getElem_fin, Vector.getElem_set, slotOf, BitVec.val_toFin]
    have hk' : k < r.count + 1 := by simpa [hcount] using hk
    by_cases hkc : k < r.count
    · have hne : ¬ r.head.toNat = (r.tail + BitVec.ofNat 6 k).toNat := by rw [hc] at hkc; bv_omega
      rw [List.getElem_append_left (by simpa using hkc), Ring.queue_getElem, if_neg hne]
      rfl
    · have hkeq : k = r.count := by omega
      have heq : r.head.toNat = (r.tail + BitVec.ofNat 6 k).toNat := by rw [hkeq, hc]; bv_omega
      rw [if_pos heq, List.getElem_append_right (by simp; omega)]
      simp

/-- Dropping from a ring that is not empty removes the head of its queue. -/
theorem Ring.drop_queue (r : Ring) (hne : r.empty = false) (hf : r.full = true → r.head = r.tail) :
    r.drop.queue = r.queue.tail := by
  have hcount : r.drop.count = r.count - 1 := by
    rw [Ring.count_not_full (r := r.drop) rfl]
    cases h : r.full with
    | true => rw [Ring.count_full h]; simp only [Ring.drop_head, Ring.drop_tail, hf h]; bv_omega
    | false =>
      have hc0 : r.count ≠ 0 := fun h0 => by simp [(Ring.empty_iff r).2 h0] at hne
      rw [Ring.count_not_full h] at hc0 ⊢
      simp only [Ring.drop_head, Ring.drop_tail]; bv_omega
  apply List.ext_getElem
  · simp [hcount]
  · intro k hk _
    rw [List.getElem_tail, Ring.queue_getElem, Ring.queue_getElem]
    simp only [Ring.drop_slots, Ring.drop_tail, Fin.getElem_fin, slotOf, BitVec.val_toFin]
    congr 1
    bv_omega

/-- The oldest record is the head of the queue. -/
theorem Ring.queue_cons (r : Ring) (hne : r.empty = false) : r.queue = r.oldest :: r.queue.tail := by
  have hlen : 0 < r.queue.length := by
    rcases Nat.eq_zero_or_pos r.count with h0 | h0
    · simp [(Ring.empty_iff r).2 h0] at hne
    · simpa using h0
  have hhead : r.queue[0] = r.oldest := by rw [Ring.queue_getElem]; simp [Ring.oldest]
  rw [← hhead, ← List.head_eq_getElem_zero (by simpa using List.length_pos_iff.1 hlen), List.cons_head_tail]

end Sys2Proof.Machine
end

