-- ==== Sys2Proof/Tests/Slice0.lean ====
section
/-! SUPPORT. Small tests of the model, each expected value taken from spec/ (30_encoding.md, 95_test_vectors.md) or worked
out from its rules by hand, and witnesses that the statements' hypotheses can be met. -/

namespace Sys2Proof.Tests

open Sys2Proof Sys2Proof.Machine

/-! ## WellFormed: an ill-formed term for each check -/

theorem test_illFormed_0C0F : (Instr.regUnmapped0C0F 0x10).wellFormed = false := by decide
theorem test_illFormed_101F : (Instr.regUnmapped101F 0x20).wellFormed = false := by decide
theorem test_illFormed_203F : (Instr.regUnmapped203F 0x1F).wellFormed = false := by decide
theorem test_illFormed_407F : (Instr.regUnmapped407F 0x80).wellFormed = false := by decide
theorem test_illFormed_80FF : (Instr.regUnmapped80FF 0x7F).wellFormed = false := by decide

/-! ## Decoding: a word of every constructor, from 95_test_vectors.md 2.1 and 30_encoding.md R70 -/

theorem test_decode_busData : decode (.op 0x000000005A) = .instr (.busData 0x5A) := by decide
theorem test_decode_busRead : decode (.op 0x1000000000) = .instr .busRead := by decide
theorem test_decode_busStop : decode (.op 0x2000000000) = .instr .busStop := by decide
theorem test_decode_busAbort : decode (.op 0x3000000000) = .instr .busAbort := by decide
theorem test_decode_push : decode (.op 0x8010020401) = .instr (.push ⟨0x01, 0x04, 0x02, 0x10⟩) := by decide
theorem test_decode_setModmask : decode (.op 0x9000000002) = .instr (.setModmask 0x02) := by decide
theorem test_decode_setCursor : decode (.op 0xA000000011) = .instr (.setCursor 0x11) := by decide
theorem test_decode_setTshigh : decode (.op 0xB00000BEEF) = .instr (.setTshigh 0xBEEF) := by decide
theorem test_decode_setModvalid : decode (.op 0xC000000001) = .instr (.setModvalid true) := by decide
theorem test_decode_reset : decode (.op 0xF000000000) = .instr .reset := by decide
theorem test_decode_regDeviceId : decode (.regSel 0x00) = .instr .regDeviceId := by decide
theorem test_decode_regFwVersion : decode (.regSel 0x01) = .instr .regFwVersion := by decide
theorem test_decode_regStatus : decode (.regSel 0x02) = .instr .regStatus := by decide
theorem test_decode_regModMask : decode (.regSel 0x03) = .instr .regModMask := by decide
theorem test_decode_regFifoCount : decode (.regSel 0x04) = .instr .regFifoCount := by decide
theorem test_decode_regFifoPop : decode (.regSel 0x05) = .instr .regFifoPop := by decide
theorem test_decode_regCfgFlags : decode (.regSel 0x06) = .instr .regCfgFlags := by decide
theorem test_decode_regCursor : decode (.regSel 0x07) = .instr .regCursor := by decide
theorem test_decode_regLedState : decode (.regSel 0x08) = .instr .regLedState := by decide
theorem test_decode_regScanRate : decode (.regSel 0x09) = .instr .regScanRate := by decide
theorem test_decode_regClockHigh : decode (.regSel 0x0A) = .instr .regClockHigh := by decide
theorem test_decode_regUnmapped0B : decode (.regSel 0x0B) = .instr .regUnmapped0B := by decide
theorem test_decode_regUnmapped0C0F : decode (.regSel 0x0C) = .instr (.regUnmapped0C0F 0x0C) := by decide
theorem test_decode_regUnmapped101F : decode (.regSel 0x1F) = .instr (.regUnmapped101F 0x1F) := by decide
theorem test_decode_regUnmapped203F : decode (.regSel 0x20) = .instr (.regUnmapped203F 0x20) := by decide
theorem test_decode_regUnmapped407F : decode (.regSel 0x7F) = .instr (.regUnmapped407F 0x7F) := by decide
theorem test_decode_regUnmapped80FF : decode (.regSel 0x80) = .instr (.regUnmapped80FF 0x80) := by decide

/-- The reserved words of 95_test_vectors.md 2.1. -/
theorem test_decode_reserved :
    decode (.op 0x4000000000) = .reserved .reservedOp ∧ decode (.op 0xE000000000) = .reserved .reservedOp ∧
    decode (.op 0x0100000000) = .reserved .rsvNonzero ∧ decode (.op 0x0000000100) = .reserved .unusedPayload ∧
    decode (.op 0x1000000001) = .reserved .unusedPayload ∧ decode (.op 0xC000000002) = .reserved .unusedPayload := by
  decide

/-- The word of the example of 30_encoding.md R73. -/
theorem test_encode_push : encode (.push ⟨0x01, 0x04, 0x02, 0x10⟩) = .op 0x8010020401 := by decide

/-- The line of the same example, its bytes written in hexadecimal. -/
theorem test_assembly_push : assembly (.push ⟨0x01, 0x04, 0x02, 0x10⟩) = some "PUSH 0x01, 0x04, 0x02, 0x10" := by
  decide

theorem test_tableWord_op : decodeTableWord 40 0x8010020401 = some (.push ⟨0x01, 0x04, 0x02, 0x10⟩) := by decide
theorem test_tableWord_row : decodeTableWord 8 0x0F = some (.regUnmapped0C0F 0x0F) := by decide
theorem test_tableWord_reserved : decodeTableWord 40 0x4000000000 = none := by decide

/-- A cursor release code: bit 7 set (10_state.md R18). -/
theorem test_cursorCode : cursorCode .center true = 0x85 := by decide

/-- The press of a modifier in the order R82 promises, and not in the other. -/
theorem test_contract :
    isModifierKeyTraffic 0x20 0x02 false [⟨3, 0, 0x02, 7⟩, ⟨1, 0x20, 0x02, 8⟩] = true ∧
    isModifierKeyTraffic 0x20 0x02 false [⟨1, 0x20, 0x02, 8⟩, ⟨3, 0, 0x02, 7⟩] = false := by decide

/-! ## Small states -/

/-- The reset state with the pointer latched at byte `k` of register `p`. -/
def pointed (p : Byte) (k : BytePos) : State :=
  { State.reset with engine := { Engine.reset with ptr := p, subIndex := k, pointerValid := true } }

/-- Record A and record B of the vectors. -/
def recA : Record := ⟨0x01, 0x04, 0x00, 0x21⟩

def recB : Record := ⟨0x02, 0x04, 0x00, 0x22⟩

/-- A ring that holds 64 copies of A, its oldest at slot 5. -/
def fullRing : Ring := { slots := Vector.replicate 64 recA, head := 5, tail := 5, full := true }

/-- A ring that holds A and then B. -/
def ringAB : Ring := ((Ring.reset.store recA).store recB)

/-- A full block. -/
def fullState : State := { State.reset with ring := fullRing }

/-- The bank after one step of `exec`. -/
def bankAfter (i : Instr) (s : State) : Option Bank :=
  match exec i s with
  | .next t => some t.bank
  | _ => none

/-- The pointer, the sub-index and the output after one step of `exec`. -/
def whereAfter (i : Instr) (s : State) : Option (Byte × BytePos × Output) :=
  match exec i s with
  | .next t => some (t.engine.ptr, t.engine.subIndex, t.out)
  | _ => none

/-- The ring's indices, `full` and the output after one step of `exec`. -/
def ringAfter (i : Instr) (s : State) : Option ((RingIdx × RingIdx) × Bool × Output) :=
  match exec i s with
  | .next t => some ((t.ring.head, t.ring.tail), t.ring.full, t.out)
  | _ => none

/-! ## One step each (95_test_vectors.md 2.2 to 2.4) -/

theorem test_push_first : ringAfter (.push recA) State.reset = some ((1, 0), false, .pushOk) := by decide
theorem test_push_full : ringAfter (.push recB) fullState = some ((5, 5), true, .pushFail) := by decide
theorem test_push_full_error : (bankAfter (.push recB) fullState).map (·.errorSticky) = some true := by decide

/-- The 64th record: `head` wraps from 63 to 0 and meets `tail`. -/
theorem test_push_last :
    ringAfter (.push recB) { fullState with ring := { fullRing with head := 63, tail := 0, full := false } } =
      some ((0, 0), true, .pushOk) := by decide

theorem test_setModmask : (bankAfter (.setModmask 0x02) State.reset).map (·.modMask) = some 0x02 := by decide
theorem test_setCursor : (bankAfter (.setCursor 0xFF) State.reset).map (·.cursorState) = some 0xFF := by decide
theorem test_setTshigh : (bankAfter (.setTshigh 0x1234) State.reset).map (·.timestampHigh) = some 0x1234 := by decide
theorem test_setModvalid : (bankAfter (.setModvalid true) State.reset).map (·.modValid) = some true := by decide
theorem test_reset_clears_error :
    (bankAfter .reset { fullState with bank := { Bank.reset with errorSticky := true } }).map (·.errorSticky) =
      some false := by decide

/-- A pointer byte is not data: the register at the old pointer keeps its value. -/
theorem test_busData_pointer : whereAfter (.busData 0x06) State.reset = some (0x06, 0, .nothing) := by decide
theorem test_busData_cfgFlags : (bankAfter (.busData 0x5A) (pointed 0x06 0)).map (·.cfgFlags) = some 0x5A := by decide

/-- A write to a read-only register is discarded, and the pointer advances. -/
theorem test_busData_readOnly : whereAfter (.busData 0xAA) (pointed 0x05 0) = some (0x05, 1, .nothing) := by decide
theorem test_busRead_deviceId : whereAfter .busRead State.reset = some (0x01, 0, .served Config.deviceId) := rfl
theorem test_busRead_status : whereAfter .busRead (pointed 0x02 0) = some (0x03, 0, .served 0x01) := by decide
theorem test_busRead_wraps : whereAfter .busRead (pointed 0xFF 0) = some (0x00, 0, .served 0x00) := by decide
theorem test_busStop : whereAfter .busStop (pointed 0x08 2) = some (0x08, 0, .nothing) := by decide
theorem test_busAbort : whereAfter .busAbort (pointed 0x08 1) = some (0x08, 0, .nothing) := by decide

/-- FIFO_POP pops the oldest record of a full ring: `tail` moves, `full` is cleared, the type byte is served. -/
theorem test_busRead_pop :
    ringAfter .busRead { pointed 0x05 0 with ring := fullRing } = some ((5, 6), false, .served 0x01) := by decide

/-- With an empty ring the third byte of the NOP is the live mask (95_test_vectors.md 2.4). -/
theorem test_regFifoPop_nop :
    whereAfter .regFifoPop { pointed 0x05 0 with event := some .read, bank := { Bank.reset with modMask := 0x02 } } =
      some (0x05, 1, .served 0x00) := by decide

/-- Reads that follow a write to 0x05 go by `cacheOffset`, not by the sub-index. -/
theorem test_regFifoPop_offset :
    whereAfter .regFifoPop
      { pointed 0x05 3 with
        event := some .read,
        engine := { (pointed 0x05 3).engine with cacheValid := true, cacheOffset := 2, cacheRecord := ⟨1, 2, 3, 4⟩ } } =
      some (0x06, 0, .served 0x03) := by decide

theorem test_regFwVersion_minor :
    whereAfter .regFwVersion { pointed 0x01 1 with event := some .read } = some (0x02, 0, .served Config.fwMinor) := rfl
theorem test_regStatus_overflow :
    whereAfter .regStatus
      { pointed 0x02 0 with
        event := some .read, ring := fullRing, bank := { Bank.reset with errorSticky := true } } =
      some (0x03, 0, .served 0x82) := by decide
theorem test_regModMask_override :
    (bankAfter .regModMask { pointed 0x03 0 with event := some (.write 0x22) }).map (·.modMask) = some 0x22 := by decide
theorem test_regFifoCount_full :
    whereAfter .regFifoCount { pointed 0x04 0 with event := some .read, ring := fullRing } =
      some (0x05, 0, .served 0x40) := by decide
theorem test_regCursor :
    whereAfter .regCursor
      { pointed 0x07 0 with event := some .read, bank := { Bank.reset with cursorState := 0x11 } } =
      some (0x08, 0, .served 0x11) := by decide

/-- Bytes 0x10, 0x20 stored, then 0x30 at sub-index 2: the triple in the order π is emitted, and the pointer moves on. -/
theorem test_regLedState_third :
    whereAfter .regLedState
      { pointed 0x08 2 with event := some (.write 0x30), bank := { Bank.reset with ledState := #v[0x10, 0x20, 0] } } =
      some (0x09, 0, ledUpdateOf #v[0x10, 0x20, 0x30]) := rfl
theorem test_regScanRate_low :
    whereAfter .regScanRate
      { pointed 0x09 0 with event := some .read, bank := { Bank.reset with scanRateHz := 0x01F4 } } =
      some (0x0A, 0, .served 0xF4) := by decide
theorem test_regScanRate_write :
    (bankAfter .regScanRate
      { pointed 0x09 0 with
        event := some (.write 0x64), bank := { Bank.reset with scanRateHz := 0x01F4 } }).map (·.scanRateHz) =
      some 0x0064 := by decide
theorem test_regClockHigh :
    whereAfter .regClockHigh
      { pointed 0x0A 0 with event := some .read, bank := { Bank.reset with timestampHigh := 0xBEEF } } =
      some (0x0A, 1, .served 0xBE) := by decide
theorem test_regUnmapped : whereAfter (.regUnmapped80FF 0xFE) { pointed 0xFE 0 with event := some .read } =
    some (0xFF, 0, .served 0x00) := by decide

/-- The other five unmapped rows, at the ends of their ranges: a read serves 0x00 and moves on by one. -/
theorem test_regUnmapped_others :
    whereAfter .regUnmapped0B { pointed 0x0B 0 with event := some .read } = some (0x0C, 0, .served 0x00) ∧
    whereAfter (.regUnmapped0C0F 0x0F) { pointed 0x0F 0 with event := some .read } = some (0x10, 0, .served 0x00) ∧
    whereAfter (.regUnmapped101F 0x10) { pointed 0x10 0 with event := some .read } = some (0x11, 0, .served 0x00) ∧
    whereAfter (.regUnmapped203F 0x3F) { pointed 0x3F 0 with event := some .read } = some (0x40, 0, .served 0x00) ∧
    whereAfter (.regUnmapped407F 0x40) { pointed 0x40 0 with event := some .read } = some (0x41, 0, .served 0x00) := by
  decide

/-- DEVICE_ID is constant for the host: a write is discarded. -/
theorem test_regDeviceId_write :
    whereAfter .regDeviceId { pointed 0x00 0 with event := some (.write 0xFF) } = some (0x01, 0, .nothing) := by decide

/-- INT_N, when the line exists, is asserted while a record is held; a block without the line holds it at 1. -/
theorem test_intN : intN fullState = !Config.intPresent ∧ intN State.reset = true := by
  constructor
  · show (!(Config.intPresent && true)) = _
    rw [Bool.and_true]
  · show (!(Config.intPresent && false)) = _
    rw [Bool.and_false]; rfl

/-- The whole of the step: fetch the presented word, decode it, perform it. -/
theorem test_step_push :
    step (State.reset.withFetchWord 40 0x8010020401) = exec (.push ⟨0x01, 0x04, 0x02, 0x10⟩) State.reset := rfl
theorem test_step_row :
    step (State.reset.withFetchWord 8 0x06) = exec .regCfgFlags (State.reset.withFetchWord 8 0x06) := rfl

/-! ## Witnesses: the hypotheses of each statement hold of a concrete state and operands -/

/-- A state built from the reset state meets the invariants. -/
theorem inv_pointed (p : Byte) (k : BytePos) (ring : Ring) (hr : ring.full = true → ring.head = ring.tail)
    (hc : ring.count ≤ 64) (hk : k.toNat < width p) : ({ pointed p k with ring := ring } : State).Inv :=
  ⟨hr, hc, hk, fun _ => rfl, by show (0 : BytePos).toNat ≤ 3; decide⟩

theorem witness_EncodedInstructionDecodesToItself :
    (Instr.regUnmapped0C0F 0x0F).wellFormed = true ∧ (Instr.regUnmapped101F 0x10).wellFormed = true ∧
    (Instr.regUnmapped203F 0x3F).wellFormed = true ∧ (Instr.regUnmapped407F 0x40).wellFormed = true ∧
    (Instr.regUnmapped80FF 0xFF).wellFormed = true ∧ (Instr.push recA).wellFormed = true := by decide

theorem witness_DecodedWordIsTheEncoding :
    decode (.op 0xB00000FFFF) = .instr (.setTshigh 0xFFFF) ∧ decode (.regSel 0x0B) = .instr .regUnmapped0B := by decide

/-- Each range row at both ends of its range. -/
theorem witness_RegisterSelectFollowsItsRows :
    ((0x0C : Byte) &&& 0xFC = 0x0C ∧ (0x0F : Byte) &&& 0xFC = 0x0C) ∧
    ((0x10 : Byte) &&& 0xF0 = 0x10 ∧ (0x1F : Byte) &&& 0xF0 = 0x10) ∧
    ((0x20 : Byte) &&& 0xE0 = 0x20 ∧ (0x3F : Byte) &&& 0xE0 = 0x20) ∧
    ((0x40 : Byte) &&& 0xC0 = 0x40 ∧ (0x7F : Byte) &&& 0xC0 = 0x40) ∧
    ((0x80 : Byte) &&& 0x80 = 0x80 ∧ (0xFF : Byte) &&& 0x80 = 0x80) := by decide

theorem witness_StepRunsThePresentedOperation :
    let s := { State.reset with input := [0x1000000000, 0x2000000000] }
    s.event = none ∧ s.input = 0x1000000000 :: [0x2000000000] ∧ decodeOp 0x1000000000 = .instr .busRead := by decide

theorem witness_StepRefusesAReservedWord :
    let s := { State.reset with input := [0x4000000000] }
    s.event = none ∧ s.input = 0x4000000000 :: [] ∧ decodeOp 0x4000000000 = .reserved .reservedOp := by decide

theorem witness_StepWithNothingPresentedIsIdle : State.reset.event = none ∧ State.reset.input = [] := by decide

theorem witness_ByteEventRunsThePointedRow : (pointed 0x05 3).engine.pointerValid = true := by decide

theorem witness_EveryStepEndsItsByteEvent : ∃ t, step (pointed 0x05 0) = .next t := ⟨_, rfl⟩

theorem witness_EveryPresentedSequenceRunsToItsEnd :
    let s := { State.reset with input := [0x0000000005, 0x1000000000, 0xF000000000] }
    s.event = none ∧ s.input = [0x0000000005, 0x1000000000, 0xF000000000] ∧
    ∀ w ∈ s.input, ∃ i, decodeOp w = .instr i := by
  refine ⟨rfl, rfl, ?_⟩
  intro w hw
  simp only [List.mem_cons, List.not_mem_nil, or_false] at hw
  rcases hw with rfl | rfl | rfl
  · exact ⟨.busData 0x05, by decide⟩
  · exact ⟨.busRead, by decide⟩
  · exact ⟨.reset, by decide⟩

/-- The advance within a register and across its end, at the last byte but one and at the last; a register of width
one. -/
theorem witness_AdvanceMovesToTheNextByte :
    (pointed 0x05 2).engine.subIndex.toNat + 1 < width (pointed 0x05 2).engine.ptr ∧
    ¬ (pointed 0x05 3).engine.subIndex.toNat + 1 < width (pointed 0x05 3).engine.ptr ∧
    ((0xFF : Byte) ≠ 0x01 ∧ (0xFF : Byte) ≠ 0x05 ∧ (0xFF : Byte) ≠ 0x08 ∧ (0xFF : Byte) ≠ 0x0A) := by decide

theorem witness_AdvancesVisitEveryByteInOrder :
    (pointed 0x05 0).engine.subIndex = 0 ∧ 3 < width (pointed 0x05 0).engine.ptr := by decide

theorem witness_BusDataLatchesThePointer : State.reset.engine.pointerValid = false := by decide

theorem witness_BusDataWritesTheTable : (pointed 0x08 2).Inv ∧ (pointed 0x08 2).engine.pointerValid = true :=
  ⟨inv_pointed 0x08 2 Ring.reset (by decide) (by decide) (by decide), by decide⟩

theorem witness_BusReadServesTheTable : (pointed 0x0A 1).Inv ∧ (pointed 0x0A 1).engine.ptr ≠ 0x05 :=
  ⟨inv_pointed 0x0A 1 Ring.reset (by decide) (by decide) (by decide), by decide⟩

/-- The block while a cached record is served: byte `k` is next. -/
def caching (k : BytePos) : State :=
  { pointed 0x05 k with
    engine := { (pointed 0x05 k).engine with cacheRecord := recA, cacheValid := true, cacheOffset := k } }

theorem witness_BusReadPopsAtFifoPop_more :
    (caching 2).Inv ∧ (caching 2).engine.ptr = 0x05 ∧ (caching 2).engine.cacheValid = true ∧
    (caching 2).engine.cacheOffset ≠ 3 :=
  ⟨⟨by decide, by decide, by decide, by decide, by decide⟩, by decide, by decide, by decide⟩

theorem witness_BusReadPopsAtFifoPop_last :
    (caching 3).Inv ∧ (caching 3).engine.ptr = 0x05 ∧ (caching 3).engine.cacheValid = true ∧
    (caching 3).engine.cacheOffset = 3 :=
  ⟨⟨by decide, by decide, by decide, by decide, by decide⟩, by decide, by decide, by decide⟩

theorem witness_BusReadPopsAtFifoPop_pop :
    ({ pointed 0x05 0 with ring := fullRing } : State).Inv ∧ (pointed 0x05 0).engine.ptr = 0x05 ∧
    (pointed 0x05 0).engine.cacheValid = false :=
  ⟨inv_pointed 0x05 0 fullRing (by decide) (by decide) (by decide), by decide, by decide⟩

/-- BUS_READs and another STOP before the pointer byte; data, a read and a PUSH before the next data byte. -/
theorem witness_NewTransactionNeedsANewPointer :
    (∀ i ∈ [Instr.busRead, .busStop, .push recA], ∀ b, i ≠ .busData b) ∧
    (pointed 0x05 3).engine.pointerValid = true ∧
    (∀ i ∈ [Instr.busData 0x01, .busRead, .push recA], i ≠ .busStop ∧ i ≠ .busAbort ∧ i ≠ .reset) ∧
    (Instr.push recA).agent = .producer := by
  refine ⟨?_, by decide, by decide, by decide⟩
  intro i hi b
  simp only [List.mem_cons, List.not_mem_nil, or_false] at hi
  rcases hi with rfl | rfl | rfl <;> simp

theorem witness_PushStoresOrFails : fullState.ring.full = true ∧ State.reset.ring.full = false := by decide

theorem witness_SetModMaskWritesModMask :
    (pointed 0x05 0).ring.queue = [] ∧ (pointed 0x05 0).engine.cacheValid = false ∧ (pointed 0x05 0).engine.ptr = 0x05 :=
  ⟨rfl, rfl, rfl⟩

theorem witness_SetTshighWritesTimestampHigh :
    (∀ t', Instr.busStop ≠ .setTshigh t') ∧ Instr.busStop ≠ .reset ∧ ∃ u, exec .busStop State.reset = .next u :=
  ⟨fun _ => by simp, by decide, _, rfl⟩

theorem witness_FwVersionRowServesMajorThenMinor :
    (pointed 0x01 0).engine.subIndex = 0 ∧ (pointed 0x01 1).engine.subIndex = 1 := by decide

theorem witness_FifoPopRowPopsAndServes :
    ((caching 2).engine.cacheValid = true ∧ (caching 2).engine.cacheOffset ≠ 3) ∧
    ((caching 3).engine.cacheValid = true ∧ (caching 3).engine.cacheOffset = 3) ∧
    (fullState.engine.cacheValid = false ∧ fullState.ring.empty = false) ∧
    (State.reset.engine.cacheValid = false ∧ State.reset.ring.empty = true) := by decide

theorem witness_LedStateRowStoresAndEmits : (pointed 0x08 2).engine.subIndex ≠ 3 := by decide

theorem witness_ClockHighRowServesHighThenLow :
    (pointed 0x0A 0).engine.subIndex = 0 ∧ (pointed 0x0A 1).engine.subIndex = 1 := by decide

theorem witness_UnmappedRowsServeZero :
    Instr.regUnmapped80FF 0xFF ∈ [Instr.regUnmapped0B, .regUnmapped0C0F 0xFF, .regUnmapped101F 0xFF,
      .regUnmapped203F 0xFF, .regUnmapped407F 0xFF, .regUnmapped80FF 0xFF] := by decide

theorem witness_RowsWithNoByteEventChangeNothing : isRegisterRow .regFifoPop := ⟨0x05, by decide⟩

theorem witness_EveryStepKeepsTheInvariants : (pointed 0x05 3).Inv ∧ ∃ t, step (pointed 0x05 3) = .next t :=
  ⟨inv_pointed 0x05 3 Ring.reset (by decide) (by decide) (by decide), _, rfl⟩

/-- Each change that R31 allows does occur: the fields the producer writes. -/
theorem witness_EachFieldHasOnlyItsWriters_producer :
    (bankAfter (.push recA) fullState).map (·.errorSticky) ≠ some fullState.bank.errorSticky ∧
    (bankAfter (.setModvalid true) State.reset).map (·.modValid) ≠ some State.reset.bank.modValid ∧
    (bankAfter (.setModmask 1) State.reset).map (·.modMask) ≠ some State.reset.bank.modMask ∧
    (bankAfter (.setCursor 1) State.reset).map (·.cursorState) ≠ some State.reset.bank.cursorState ∧
    (bankAfter (.setTshigh 1) State.reset).map (·.timestampHigh) ≠ some State.reset.bank.timestampHigh := by decide

/-- The fields the host writes. -/
theorem witness_EachFieldHasOnlyItsWriters_host :
    (bankAfter (.busData 1) (pointed 0x03 0)).map (·.modMask) ≠ some (pointed 0x03 0).bank.modMask ∧
    (bankAfter (.busData 1) (pointed 0x06 0)).map (·.cfgFlags) ≠ some (pointed 0x06 0).bank.cfgFlags ∧
    (bankAfter (.busData 1) (pointed 0x08 2)).map (·.ledState) ≠ some (pointed 0x08 2).bank.ledState ∧
    (bankAfter (.busData 1) { pointed 0x09 0 with bank := { Bank.reset with scanRateHz := 0 } }).map (·.scanRateHz) ≠
      some 0 := by decide

/-- The ring and the engine: a record is stored at `head`, the 64th sets `full`, a pop moves `tail` and clears `full`, and
a pointer byte moves the pointer. -/
theorem witness_EachFieldHasOnlyItsWriters_ring :
    (∃ t, exec (.push recB) { fullState with ring := { fullRing with full := false } } = .next t ∧
      t.ring.slots ≠ fullRing.slots ∧ t.ring.head ≠ fullRing.head) ∧
    (∃ t, exec (.push recB) { fullState with ring := { fullRing with head := 63, tail := 0, full := false } } = .next t ∧
      t.ring.full = true) ∧
    (∃ t, exec .busRead { pointed 0x05 0 with ring := fullRing } = .next t ∧
      t.ring.tail ≠ fullRing.tail ∧ t.ring.full = false) ∧
    (∃ t, exec (.busData 0x06) State.reset = .next t ∧ t.engine.ptr ≠ State.reset.engine.ptr) :=
  ⟨⟨_, rfl, by decide, by decide⟩, ⟨_, rfl, by decide⟩, ⟨_, rfl, by decide, by decide⟩, ⟨_, rfl, by decide⟩⟩

theorem witness_ProducerNeverTouchesTheEngine : (Instr.push recA).agent = .producer := by decide

theorem witness_RingIsABoundedQueue : ({ pointed 0x05 0 with ring := fullRing } : State).Inv :=
  inv_pointed 0x05 0 fullRing (by decide) (by decide) (by decide)

theorem witness_RecordsLeaveInTheOrderAccepted :
    ({ pointed 0x05 0 with ring := ringAB } : State).Inv ∧ Instr.reset ∉ [Instr.push recA, .busRead, .busStop] :=
  ⟨inv_pointed 0x05 0 ringAB (by decide) (by decide) (by decide), by decide⟩

theorem witness_FourReadsServeOneWholeRecord :
    let s := { pointed 0x05 0 with ring := ringAB }
    s.engine.ptr = 0x05 ∧ s.engine.subIndex = 0 ∧ s.engine.cacheValid = false ∧
    ∀ i ∈ [Instr.push recB] ++ [Instr.setModmask 0x08] ++ [Instr.setCursor 0x01], i.agent = .producer := by decide

theorem witness_PartialPopLosesTheRecord :
    let s := { State.reset with ring := ringAB }
    s.Inv ∧ s.engine.pointerValid = false ∧ s.engine.cacheValid = false ∧ s.ring.queue = recA :: recB :: [] ∧
    1 ≤ 1 ∧ 1 ≤ 4 ∧ 4 ≤ 4 :=
  ⟨⟨by decide, by decide, by decide, by decide, by decide⟩, by decide, by decide, by decide, by decide, by decide,
    by decide⟩

theorem witness_ThirdLedByteEmitsOneUpdate : State.reset.engine.pointerValid = false := by decide

theorem witness_ClockHighReadCanTear :
    ({ State.reset with bank := { Bank.reset with timestampHigh := 0x12FF } } : State).engine.pointerValid = false := by
  decide

/-- Two different states that only unspecified contents tell apart. -/
theorem witness_UnspecifiedContentsAreNeverObservable :
    ∃ s s' : State, s.Same s' ∧ s.ring.slots[0] ≠ s'.ring.slots[0] ∧ s.engine.cacheRecord ≠ s'.engine.cacheRecord :=
  ⟨{ State.reset with
      ring := { Ring.reset with slots := Vector.replicate 64 recA },
      engine := { Engine.reset with cacheRecord := recA } },
    { State.reset with
      ring := { Ring.reset with slots := Vector.replicate 64 recB },
      engine := { Engine.reset with cacheRecord := recB } },
    ⟨⟨rfl, rfl, rfl, rfl⟩, rfl, ⟨rfl, rfl, rfl, rfl, rfl, by decide⟩, rfl, rfl, rfl⟩, by decide, by decide⟩

theorem witness_SameStatesLookTheSame : State.reset.Same State.reset :=
  ⟨⟨rfl, rfl, rfl, rfl⟩, rfl, ⟨rfl, rfl, rfl, rfl, rfl, fun _ => rfl⟩, rfl, rfl, rfl⟩

theorem witness_WriteTransactionStoresEveryByte : State.reset.engine.pointerValid = false := by decide

end Sys2Proof.Tests
end

section
/-! PROOFS. The state family (10_state.md R23, R31, R36): the ownership table of R31 said once, as what an instruction
other than RESET can make of the bank and of the ring, and the statements that follow from it. -/

namespace Sys2Proof.Machine

open Sys2Proof Sys2Proof.Laws

/-! ## The status byte -/

/-- A flag placed at bit `n` shows at bit `n` and nowhere else. -/
@[simp] theorem statusBit_getElem (flag : Bool) (n k : Nat) (hk : k < 8) :
    (statusBit flag n)[k] = (flag && decide (k = n)) := by
  cases flag with
  | false => simp [statusBit]
  | true =>
    change (BitVec.twoPow 8 n)[k] = decide (k = n)
    simp only [BitVec.getElem_twoPow, eq_comm]

theorem statusByte_error (s : State) : (statusByte s).getLsbD 7 = s.bank.errorSticky := by
  simp [statusByte]

/-! ## Which row an instruction performs -/

/-- Instruction `i` on `s` performs the register-select row `r` with the byte event `ev`. -/
inductive PerformsRow (i : Instr) (s : State) (r : RegSel) (ev : Option ByteEvent) : Prop where
  /-- BUS_READ, at the row that the pointer matches. -/
  | busRead (hi : i = .busRead) (hr : selectReg s.engine.ptr = r) (hev : ev = some .read)
  /-- The data form of BUS_DATA, at the row that the pointer matches. -/
  | busData (b : Byte) (hi : i = .busData b) (hv : s.engine.pointerValid = true) (hr : selectReg s.engine.ptr = r)
    (hev : ev = some (.write b))
  /-- The row itself, with the byte event under way. -/
  | row (p : Byte) (hi : i = r.instr p) (hev : ev = s.event)

/-- A write performed at a row that only the pointer `p` selects is a host write to the register at `p`. -/
theorem PerformsRow.hostWrites {i : Instr} {s : State} {r : RegSel} {b p : Byte}
    (h : PerformsRow i s r (some (.write b))) (hsel : ∀ q, selectReg q = r → q = p)
    (hinstr : ∀ q, r.instr q = decodeReg p) : HostWrites i s p := by
  cases h with
  | busRead hi hr hev => cases hev
  | busData c hi hv hr hev => exact .inl ⟨c, hi, hv, hsel _ hr⟩
  | row q hi hev => exact .inr ⟨hi.trans (hinstr q), b, hev.symm⟩

/-- A read performed at FIFO_POP with no valid cache pops. -/
theorem PerformsRow.popsNow {i : Instr} {s : State} (h : PerformsRow i s .fifoPop (some .read))
    (hc : s.engine.cacheValid = false) : popsNow i s = true := by
  cases h with
  | busRead hi hr hev => simp [Machine.popsNow, hi, hc, (selectReg_eq_fifoPop _).1 hr]
  | busData b hi hv hr hev => cases hev
  | row p hi hev => simp [Machine.popsNow, hi, hc, RegSel.instr, ← hev]

/-- A host instruction answers a next state: it performs a row, or it leaves ring and bank (a pointer byte,
STOP, ABORT). -/
theorem exec_host_cases (i : Instr) (s : State) (h : i.agent = .host) :
    ∃ t, exec i s = .next t ∧ ((t.bank = s.bank ∧ t.ring = s.ring) ∨
      ∃ r ev, PerformsRow i s r ev ∧ RowEffect r { s with event := ev } t) := by
  rcases instr_cases i with ⟨b, rfl⟩ | rfl | rfl | rfl | ⟨r, rfl⟩ | ⟨m, rfl⟩ | ⟨c, rfl⟩ | ⟨t, rfl⟩ | ⟨v, rfl⟩ | rfl |
    ⟨r, p, rfl⟩
  · cases hv : s.engine.pointerValid with
    | true =>
      obtain ⟨t, he, hrow⟩ := byteEvent_effect (.write b) s
      exact ⟨t, (execBusData_data b s hv).trans he, .inr ⟨_, _, .busData b rfl hv rfl rfl, hrow⟩⟩
    | false => exact ⟨_, execBusData_pointer b s hv, .inl ⟨rfl, rfl⟩⟩
  · obtain ⟨t, he, hrow⟩ := byteEvent_effect .read s
    exact ⟨t, he, .inr ⟨_, _, .busRead rfl rfl rfl, hrow⟩⟩
  · exact ⟨_, rfl, .inl ⟨rfl, rfl⟩⟩
  · exact ⟨_, rfl, .inl ⟨rfl, rfl⟩⟩
  · cases h
  · cases h
  · cases h
  · cases h
  · cases h
  · cases h
  · obtain ⟨t, he, hrow⟩ := exec_row_effect r p s
    exact ⟨t, he, .inr ⟨r, s.event, .row p rfl rfl, hrow⟩⟩

/-! ## The ownership table (R31) -/

/-- What instruction `i`, no RESET, can make of the bank of `s`: at most one field changes, by a writer of
that field. -/
inductive BankChange (i : Instr) (s : State) : Bank → Prop where
  | none : BankChange i s s.bank
  | errorSticky (hi : ∃ r, i = .push r) : BankChange i s { s.bank with errorSticky := true }
  | modValid (v : Bool) (hi : i = .setModvalid v) : BankChange i s { s.bank with modValid := v }
  | modMask (m : Byte) (hi : (∃ m, i = .setModmask m) ∨ HostWrites i s 0x03) :
    BankChange i s { s.bank with modMask := m }
  | cursorState (c : Byte) (hi : i = .setCursor c) : BankChange i s { s.bank with cursorState := c }
  | timestampHigh (t : Half) (hi : i = .setTshigh t) : BankChange i s { s.bank with timestampHigh := t }
  | cfgFlags (b : Byte) (hi : HostWrites i s 0x06) : BankChange i s { s.bank with cfgFlags := b }
  | ledState (led : Vector Byte 3) (hi : HostWrites i s 0x08) : BankChange i s { s.bank with ledState := led }
  | scanRateHz (rate : Half) (hi : HostWrites i s 0x09) : BankChange i s { s.bank with scanRateHz := rate }

/-- What instruction `i`, no RESET, can make of the ring of `s`. -/
inductive RingChange (i : Instr) (s : State) : Ring → Prop where
  | none : RingChange i s s.ring
  | store (r : Record) (hi : i = .push r) : RingChange i s (s.ring.store r)
  | drop (hi : popsNow i s = true) : RingChange i s s.ring.drop

/-- Only a PUSH touches ERROR. -/
theorem BankChange.errorSticky_eq {i : Instr} {s : State} {b : Bank} (h : BankChange i s b) (hp : ∀ r, i ≠ .push r) :
    b.errorSticky = s.bank.errorSticky := by
  cases h with
  | errorSticky hi =>
    obtain ⟨r, hr⟩ := hi
    exact absurd hr (hp r)
  | _ => rfl

/-- Of the rows, only the four writable registers change the bank, each its own field. -/
theorem PerformsRow.bankChange {i : Instr} {s t : State} {r : RegSel} {ev : Option ByteEvent}
    (h : PerformsRow i s r ev) (he : RowEffect r { s with event := ev } t) : BankChange i s t.bank := by
  cases he with
  | idle hev => exact .none
  | serve b hev hr => exact .none
  | pop hev hr => simpa [readFifoPop] using BankChange.none
  | discard b hev => exact .none
  | modMask b hev hr =>
    subst hev hr
    exact .modMask b (.inr (h.hostWrites (fun q => (selectReg_eq_modMask q).1) fun _ => rfl))
  | cfgFlags b hev hr =>
    subst hev hr
    exact .cfgFlags b (h.hostWrites (fun q => (selectReg_eq_cfgFlags q).1) fun _ => rfl)
  | scanRate b hev hr =>
    subst hev hr
    exact .scanRateHz _ (h.hostWrites (fun q => (selectReg_eq_scanRate q).1) fun _ => rfl)
  | ledState b hev hr =>
    subst hev hr
    exact .ledState _ (h.hostWrites (fun q => (selectReg_eq_ledState q).1) fun _ => rfl)

/-- Of the rows, only a read of FIFO_POP with no valid cache changes the ring, by dropping its oldest record. -/
theorem PerformsRow.ringChange {i : Instr} {s t : State} {r : RegSel} {ev : Option ByteEvent}
    (h : PerformsRow i s r ev) (he : RowEffect r { s with event := ev } t) : RingChange i s t.ring := by
  cases he with
  | pop hev hr =>
    subst hev hr
    rcases State.fillCache_cases { s with event := some .read } with ⟨_, e⟩ | ⟨hc, _, e⟩ | ⟨_, _, e⟩
    · simpa [readFifoPop, e] using RingChange.none
    · simpa [readFifoPop, e] using RingChange.drop (h.popsNow hc)
    · simpa [readFifoPop, e] using RingChange.none
  | _ => exact .none

/-- PUSH stores the record, or on a full ring sets ERROR; the engine stays. -/
theorem execPush_changes (r : Record) (s : State) :
    ∃ t, exec (.push r) s = .next t ∧ BankChange (.push r) s t.bank ∧ RingChange (.push r) s t.ring ∧
      t.engine = s.engine := by
  cases hf : s.ring.full with
  | true => exact ⟨_, execPush_full r s hf, .errorSticky ⟨r, rfl⟩, .none, rfl⟩
  | false => exact ⟨_, execPush_room r s hf, .none, .store r rfl, rfl⟩

/-- Every instruction but RESET answers a next state that differs only where the table gives it a field. -/
theorem exec_changes (i : Instr) (s : State) (hi : i ≠ .reset) :
    ∃ t, exec i s = .next t ∧ BankChange i s t.bank ∧ RingChange i s t.ring ∧
      (t.engine = s.engine ∨ i.agent = .host) := by
  cases ha : i.agent with
  | host =>
    obtain ⟨t, he, ⟨hb, hr⟩ | ⟨r, ev, hrow, heff⟩⟩ := exec_host_cases i s ha
    · exact ⟨t, he, hb ▸ .none, hr ▸ .none, .inr rfl⟩
    · exact ⟨t, he, hrow.bankChange heff, hrow.ringChange heff, .inr rfl⟩
  | resetSource =>
    cases i
    case reset => exact absurd rfl hi
    all_goals cases ha
  | producer =>
    cases i
    case push r =>
      obtain ⟨t, he, hb, hr, hengine⟩ := execPush_changes r s
      exact ⟨t, he, hb, hr, .inl hengine⟩
    case setModmask m => exact ⟨_, rfl, .modMask m (.inl ⟨m, rfl⟩), .none, .inl rfl⟩
    case setCursor c => exact ⟨_, rfl, .cursorState c rfl, .none, .inl rfl⟩
    case setTshigh t => exact ⟨_, rfl, .timestampHigh t rfl, .none, .inl rfl⟩
    case setModvalid v => exact ⟨_, rfl, .modValid v rfl, .none, .inl rfl⟩
    all_goals cases ha

/-! ## ERROR (R23) -/

/-- An instruction that is neither PUSH nor RESET keeps ERROR. -/
theorem exec_keeps_errorSticky (i : Instr) (s : State) (hr : i ≠ .reset) (hp : ∀ r, i ≠ .push r) :
    ∃ t, exec i s = .next t ∧ t.bank.errorSticky = s.bank.errorSticky := by
  obtain ⟨t, he, hb, _, _⟩ := exec_changes i s hr
  exact ⟨t, he, hb.errorSticky_eq hp⟩

/-- A PUSH sets ERROR on a full ring and keeps it otherwise. -/
theorem execPush_errorSticky (r : Record) (s : State) :
    ∃ t, exec (.push r) s = .next t ∧ t.bank.errorSticky = (s.ring.full || s.bank.errorSticky) := by
  cases hf : s.ring.full with
  | true => exact ⟨_, execPush_full r s hf, rfl⟩
  | false => exact ⟨_, execPush_room r s hf, rfl⟩

/-- Settles O43: PUSH and RESET by their own equations, every other instruction by the ownership table. -/
theorem errorIsStickyUntilReset : Obligations.ErrorIsStickyUntilReset := by
  intro i s
  refine ⟨statusByte_error s, ?_⟩
  cases i
  case push r => exact execPush_errorSticky r s
  case reset => exact ⟨_, rfl, rfl⟩
  all_goals exact exec_keeps_errorSticky _ s (by simp) (by simp)

/-! ## The writers (R31) -/

/-- A field of the bank that changes was changed by a writer of that field. -/
theorem BankChange.writers {i : Instr} {s : State} {b : Bank} (h : BankChange i s b) :
    (b.errorSticky ≠ s.bank.errorSticky → (∃ r, i = .push r) ∧ b.errorSticky = true) ∧
    (b.modValid ≠ s.bank.modValid → ∃ v, i = .setModvalid v) ∧
    (b.modMask ≠ s.bank.modMask → (∃ m, i = .setModmask m) ∨ HostWrites i s 0x03) ∧
    (b.cursorState ≠ s.bank.cursorState → ∃ c, i = .setCursor c) ∧
    (b.timestampHigh ≠ s.bank.timestampHigh → ∃ t, i = .setTshigh t) ∧
    (b.cfgFlags ≠ s.bank.cfgFlags → HostWrites i s 0x06) ∧
    (b.ledState ≠ s.bank.ledState → HostWrites i s 0x08) ∧
    (b.scanRateHz ≠ s.bank.scanRateHz → HostWrites i s 0x09) := by
  cases h with
  | none => simp
  | errorSticky hi => simp [hi]
  | modValid v hi => simp [hi]
  | modMask m hi => simpa using fun _ => hi
  | cursorState c hi => simp [hi]
  | timestampHigh t hi => simp [hi]
  | cfgFlags b hi => simpa using fun _ => hi
  | ledState led hi => simpa using fun _ => hi
  | scanRateHz rate hi => simpa using fun _ => hi

/-- Slots and `head` change by a PUSH alone, `tail` by a pop alone, and `full` is set by a PUSH and cleared by a pop. -/
theorem RingChange.writers {i : Instr} {s : State} {r : Ring} (h : RingChange i s r) :
    (r.slots ≠ s.ring.slots → ∃ rec, i = .push rec) ∧
    (r.head ≠ s.ring.head → ∃ rec, i = .push rec) ∧
    (r.full = true → s.ring.full = false → ∃ rec, i = .push rec) ∧
    (r.tail ≠ s.ring.tail → popsNow i s = true) ∧
    (r.full = false → s.ring.full = true → popsNow i s = true) := by
  cases h with
  | none => cases hf : s.ring.full <;> simp
  | store rec hi => cases hf : s.ring.full <;> simp [hi, hf]
  | drop hi => simp [hi]

/-- Settles O44: the changes of bank, ring and engine are those of `exec_changes`, and each names its writer. -/
theorem eachFieldHasOnlyItsWriters : Obligations.EachFieldHasOnlyItsWriters := by
  intro i s t hi ht
  obtain ⟨t', he, hb, hr, hengine⟩ := exec_changes i s hi
  obtain rfl : t' = t := by simpa [he] using ht
  obtain ⟨herror, hvalid, hmask, hcursor, htime, hcfg, hled, hrate⟩ := hb.writers
  obtain ⟨hslots, hhead, hset, htail, hclear⟩ := hr.writers
  exact ⟨herror, hvalid, hmask, hcursor, htime, hcfg, hled, hrate, hslots, hhead, hset, htail, hclear,
    hengine.resolve_left⟩

/-! ## The engine (R36) -/

/-- Settles O45: a producer operation is a PUSH, whose two branches read the ring, or writes a bank field. -/
theorem producerNeverTouchesTheEngine : Obligations.ProducerNeverTouchesTheEngine := by
  intro i s ha
  cases i
  case push r =>
    cases hf : s.ring.full with
    | true => exact ⟨_, execPush_full r s hf, rfl, fun e => execPush_full r { s with engine := e } hf⟩
    | false => exact ⟨_, execPush_room r s hf, rfl, fun e => execPush_room r { s with engine := e } hf⟩
  case setModmask m => exact ⟨_, rfl, rfl, fun _ => rfl⟩
  case setCursor c => exact ⟨_, rfl, rfl, fun _ => rfl⟩
  case setTshigh t => exact ⟨_, rfl, rfl, fun _ => rfl⟩
  case setModvalid v => exact ⟨_, rfl, rfl, fun _ => rfl⟩
  all_goals cases ha

end Sys2Proof.Machine
end

section
/-! PROOFS. The producer's bank writes (40_fifo.md R77 to R79): each operation's answer, the NOP record that a read of
FIFO_POP caches from the live mask (42_register_file.md R95), and the statements that follow. -/

namespace Sys2Proof.Machine

open Sys2Proof

/-! ## The producer's writes -/

theorem exec_setModmask (m : Byte) (s : State) :
    exec (.setModmask m) s = .next { s with bank := { s.bank with modMask := m }, out := .nothing } := rfl

theorem exec_setCursor (c : Byte) (s : State) :
    exec (.setCursor c) s = .next { s with bank := { s.bank with cursorState := c }, out := .nothing } := rfl

theorem exec_setTshigh (t : Half) (s : State) :
    exec (.setTshigh t) s = .next { s with bank := { s.bank with timestampHigh := t }, out := .nothing } := rfl

/-! ## Runs -/

@[simp] theorem trace_nil (s : State) : trace [] s = some ([], s) := rfl

/-- A run whose first operation answers goes on from that answer. -/
theorem trace_cons {i : Instr} {s t : State} (is : List Instr) (h : exec i s = .next t) :
    trace (i :: is) s = (trace is t).map fun r => (t.out :: r.1, r.2) := by
  simp [trace, h]

/-! ## The NOP record of an empty ring (R95) -/

/-- A read of FIFO_POP on an empty ring with no valid cache changes the engine alone: it caches the NOP record. -/
theorem readFifoPop_nop {s : State} (hring : s.ring.queue = []) (hcache : s.engine.cacheValid = false) :
    (readFifoPop s).2 = { s with engine := (s.engine.loadCache (nopRecord s.bank.modMask)).passCached } := by
  have hempty : s.ring.empty = true := by simp [← Ring.queue_isEmpty, hring]
  rcases s.fillCache_cases with ⟨hvalid, _⟩ | ⟨_, hne, _⟩ | ⟨_, _, e⟩
  · simp [hcache] at hvalid
  · simp [hempty] at hne
  · simp [readFifoPop, e]

/-- A cache just loaded stays valid past its first byte. -/
theorem Engine.loadCache_passCached_cacheValid (e : Engine) (r : Record) :
    (e.loadCache r).passCached.cacheValid = true := by
  rw [Engine.passCached_more _ (by simp), Engine.loadCache_cacheValid]

/-- The row of FIFO_POP with a read under way leaves the NOP record in a valid cache. -/
theorem exec_regFifoPop_nop {s : State} (hev : s.event = some .read) (hring : s.ring.queue = [])
    (hcache : s.engine.cacheValid = false) :
    ∃ t, exec .regFifoPop s = .next t ∧ t.engine.cacheValid = true ∧
      t.engine.cacheRecord = nopRecord s.bank.modMask := by
  refine ⟨_, byteEventAt_read hev, ?_⟩
  simp [readFifoPop_nop hring hcache, Engine.loadCache_passCached_cacheValid]

/-- BUS_READ at FIFO_POP performs that row. -/
theorem exec_busRead_fifoPop {s : State} (hptr : s.engine.ptr = 0x05) :
    exec .busRead s = exec .regFifoPop { s with event := some .read } := by
  have hrow : decodeReg s.engine.ptr = .regFifoPop := by rw [hptr]; decide
  rw [← hrow]
  exact (exec_decodeReg { s with event := some .read }).symm

/-- BUS_READ at FIFO_POP leaves the NOP record in a valid cache. -/
theorem exec_busRead_nop {s : State} (hptr : s.engine.ptr = 0x05) (hring : s.ring.queue = [])
    (hcache : s.engine.cacheValid = false) :
    ∃ t, exec .busRead s = .next t ∧ t.engine.cacheValid = true ∧ t.engine.cacheRecord = nopRecord s.bank.modMask := by
  rw [exec_busRead_fifoPop hptr]
  exact exec_regFifoPop_nop rfl hring hcache

/-! ## The statements -/

/-- Settles O23: the write is the operation's equation; the NOP record that BUS_READ or the row then caches takes the
mask that the write left. -/
theorem setModMaskWritesModMask : Obligations.SetModMaskWritesModMask := by
  intro m s
  refine ⟨rfl, exec_setModmask m s, fun hring hcache => ⟨fun hptr => ?busRead, ?row⟩⟩
  case busRead =>
    obtain ⟨t, hread, hvalid, hrec⟩ :=
      exec_busRead_nop (s := { s with bank := { s.bank with modMask := m }, out := .nothing }) hptr hring hcache
    refine ⟨[.nothing, t.out], t, ?_, hvalid, congrArg Record.modMask hrec⟩
    simp [trace_cons _ (exec_setModmask m s), trace_cons _ hread]
  case row =>
    obtain ⟨t, he, hvalid, hrec⟩ :=
      exec_regFifoPop_nop (s := { s with bank := { s.bank with modMask := m }, event := some .read }) rfl hring hcache
    exact ⟨t, he, hvalid, congrArg Record.modMask hrec⟩

/-- Settles O24: by the operation's equation. -/
theorem setCursorWritesCursorState : Obligations.SetCursorWritesCursorState :=
  fun c s => ⟨rfl, exec_setCursor c s⟩

/-- Settles O25: the write is the operation's equation; that nothing else but RESET writes the field is its row of the
ownership table. -/
theorem setTshighWritesTimestampHigh : Obligations.SetTshighWritesTimestampHigh := by
  intro t s
  refine ⟨rfl, exec_setTshigh t s, fun i u hset hreset hu => ?_⟩
  obtain ⟨_, _, _, _, htime, _⟩ := eachFieldHasOnlyItsWriters i s u hreset hu
  by_contra hchanged
  obtain ⟨t', ht'⟩ := htime hchanged
  exact hset t' ht'

end Sys2Proof.Machine
end

section
/-! PROOFS. The register file (42_register_file.md R90, R91, R94, R96, R97): what a byte event leaves by the kind of read
or write form its register has, the forms of the five rows, and the statements that follow. -/

namespace Sys2Proof.Machine

open Sys2Proof

/-! ## The byte event, by the kind of form -/

/-- A read with no side effect serves its byte. -/
theorem byteEventAt_plainRead (byte : State → Byte) (wr : WriteForm) (s : State) :
    byteEventAt (plainRead byte) wr { s with event := some .read } =
      .next (afterEvent s (.served (byte { s with event := some .read }))) := byteEventAt_read rfl

/-- A write to a read-only register leaves only the advance. -/
theorem byteEventAt_discardWrite (rd : ReadForm) (b : Byte) (s : State) :
    byteEventAt rd discardWrite { s with event := some (.write b) } = .next (afterEvent s .nothing) :=
  byteEventAt_write rfl

/-- A write into the bank emits nothing. -/
theorem byteEventAt_bankWrite (rd : ReadForm) (store : Byte → Bank → Bank) (b : Byte) (s : State) :
    byteEventAt rd (bankWrite store) { s with event := some (.write b) } =
      .next (afterEvent { s with bank := store b s.bank } .nothing) := byteEventAt_write rfl

/-! ## The forms of the rows -/

theorem exec_regDeviceId (s : State) :
    exec .regDeviceId s = byteEventAt (plainRead fun _ => Config.deviceId) discardWrite s := rfl

theorem exec_regFwVersion (s : State) :
    exec .regFwVersion s =
      byteEventAt (plainRead fun s => wireByte 0x01 fwVersionBytes s.engine.subIndex) discardWrite s := rfl

theorem exec_regFifoCount (s : State) :
    exec .regFifoCount s = byteEventAt (plainRead fifoCountByte) discardWrite s := rfl

theorem exec_regCfgFlags (s : State) :
    exec .regCfgFlags s =
      byteEventAt (plainRead fun s => s.bank.cfgFlags) (bankWrite fun b bank => { bank with cfgFlags := b }) s := rfl

theorem exec_regCursor (s : State) :
    exec .regCursor s = byteEventAt (plainRead fun s => s.bank.cursorState) discardWrite s := rfl

/-! ## The bytes served -/

/-- Within the width, the byte on the wire is the register's byte at the sub-index. -/
theorem wireByte_within (p : Byte) {bytes : List Byte} {k : BytePos} (h : k.toNat < bytes.length) :
    wireByte p bytes k = bytes[k.toNat] := by
  simp [wireByte, h]

/-- A read of FW_VERSION within its width serves the version byte at the sub-index. -/
theorem exec_regFwVersion_read {s : State} {k : BytePos} (hk : s.engine.subIndex = k)
    (h : k.toNat < fwVersionBytes.length) :
    exec .regFwVersion { s with event := some .read } = .next (afterEvent s (.served fwVersionBytes[k.toNat])) := by
  rw [exec_regFwVersion, byteEventAt_plainRead, hk, wireByte_within _ h]

/-- The byte of FIFO_COUNT counts the queued records. -/
theorem fifoCountByte_queue (s : State) : fifoCountByte s = BitVec.ofNat 8 (min s.ring.queue.length 64) := by
  rw [fifoCountByte, Ring.queue_length]

/-! ## The statements -/

/-- Settles O28: a constant read form and a discarded write. -/
theorem deviceIdRowIsConstant : Obligations.DeviceIdRowIsConstant := by
  intro s b
  refine ⟨by decide, by decide, ?read, ?write⟩
  case read => rw [exec_regDeviceId, byteEventAt_plainRead]
  case write => rw [exec_regDeviceId, byteEventAt_discardWrite]

/-- Settles O29: both sub-indices lie within the width, so each read serves its byte of the version. -/
theorem fwVersionRowServesMajorThenMinor : Obligations.FwVersionRowServesMajorThenMinor := by
  intro s b
  refine ⟨by decide, width_fwVersion, ?major, ?minor, ?write⟩
  case major => exact fun hk => exec_regFwVersion_read hk (by decide)
  case minor => exact fun hk => exec_regFwVersion_read hk (by decide)
  case write => rw [exec_regFwVersion, byteEventAt_discardWrite]

/-- Settles O32: the byte is the queue's length, which the ring bounds by 64. -/
theorem fifoCountRowServesTheCount : Obligations.FifoCountRowServesTheCount := by
  intro s b
  refine ⟨by decide, by decide, ?bound, ?read, ?write⟩
  case bound => simpa using s.ring.count_le
  case read => rw [exec_regFifoCount, byteEventAt_plainRead, fifoCountByte_queue]
  case write => rw [exec_regFifoCount, byteEventAt_discardWrite]

/-- Settles O34: a plain read of the flags, and a bank write of the whole byte, which the producer's port reads back. -/
theorem cfgFlagsRowReadsAndStores : Obligations.CfgFlagsRowReadsAndStores := by
  intro s b
  refine ⟨by decide, by decide, ?read, ?write, ?port⟩
  case read => rw [exec_regCfgFlags, byteEventAt_plainRead]
  case write => rw [exec_regCfgFlags, byteEventAt_bankWrite]
  case port => rfl

/-- Settles O35: a plain read of the bitmask and a discarded write. -/
theorem cursorRowIsReadOnly : Obligations.CursorRowIsReadOnly := by
  intro s b
  refine ⟨by decide, by decide, ?read, ?write⟩
  case read => rw [exec_regCursor, byteEventAt_plainRead]
  case write => rw [exec_regCursor, byteEventAt_discardWrite]

end Sys2Proof.Machine
end

section
/-! PROOFS. The hazards (70_reset_and_hazards.md R118): what an instruction makes of pointer-valid, said once; runs of
instructions that all keep it; the data form of BUS_DATA; and the statement that follows. -/

namespace Sys2Proof.Machine

open Sys2Proof

/-! ## Pointer-valid after an instruction (10_state.md R34) -/

/-- Pointer-valid after instruction `i`, from `v` before it: BUS_DATA leaves it set, by either of its forms; STOP, ABORT
and RESET clear it. -/
def pointerValidAfter (i : Instr) (v : Bool) : Bool :=
  match i with
  | .busData _ => true
  | .busStop | .busAbort | .reset => false
  | _ => v

theorem pointerValidAfter_row (r : RegSel) (p : Byte) (v : Bool) : pointerValidAfter (r.instr p) v = v := by
  cases r <;> rfl

/-- With no BUS_DATA, a cleared pointer-valid stays cleared. -/
theorem pointerValidAfter_false {i : Instr} (h : ∀ b, i ≠ .busData b) : pointerValidAfter i false = false := by
  cases i
  case busData b => exact absurd rfl (h b)
  all_goals rfl

/-- With no STOP, ABORT or RESET, a set pointer-valid stays set. -/
theorem pointerValidAfter_true {i : Instr} (h : i ≠ .busStop ∧ i ≠ .busAbort ∧ i ≠ .reset) :
    pointerValidAfter i true = true := by
  obtain ⟨hstop, habort, hreset⟩ := h
  cases i
  case busStop => exact absurd rfl hstop
  case busAbort => exact absurd rfl habort
  case reset => exact absurd rfl hreset
  all_goals rfl

theorem pointerValidAfter_producer {i : Instr} (h : i.agent = .producer) (v : Bool) : pointerValidAfter i v = v := by
  cases i
  case push | setModmask | setCursor | setTshigh | setModvalid => rfl
  all_goals cases h

/-- Every instruction answers a next state, and pointer-valid there depends on nothing but the instruction and
pointer-valid before. -/
theorem exec_pointerValid (i : Instr) (s : State) :
    ∃ t, exec i s = .next t ∧ t.engine.pointerValid = pointerValidAfter i s.engine.pointerValid := by
  rcases instr_cases i with ⟨b, rfl⟩ | rfl | rfl | rfl | ⟨r, rfl⟩ | ⟨m, rfl⟩ | ⟨c, rfl⟩ | ⟨h, rfl⟩ | ⟨v, rfl⟩ | rfl |
    ⟨r, p, rfl⟩
  · cases hv : s.engine.pointerValid with
    | true =>
      obtain ⟨t, he, hrow⟩ := byteEvent_effect (.write b) s
      exact ⟨t, (execBusData_data b s hv).trans he, hrow.pointerValid_eq.trans hv⟩
    | false => exact ⟨_, execBusData_pointer b s hv, rfl⟩
  · obtain ⟨t, he, hrow⟩ := byteEvent_effect .read s
    exact ⟨t, he, hrow.pointerValid_eq⟩
  · exact ⟨_, rfl, rfl⟩
  · exact ⟨_, rfl, rfl⟩
  · obtain ⟨t, he, _, _, hengine⟩ := execPush_changes r s
    exact ⟨t, he, congrArg Engine.pointerValid hengine⟩
  · exact ⟨_, rfl, rfl⟩
  · exact ⟨_, rfl, rfl⟩
  · exact ⟨_, rfl, rfl⟩
  · exact ⟨_, rfl, rfl⟩
  · exact ⟨_, rfl, rfl⟩
  · obtain ⟨t, he, hrow⟩ := exec_row_effect r p s
    exact ⟨t, he, hrow.pointerValid_eq.trans (pointerValidAfter_row r p _).symm⟩

/-- A run of instructions that each keep pointer-valid at `v` goes through and ends with it at `v`. -/
theorem trace_keeps_pointerValid {v : Bool} {is : List Instr} (h : ∀ i ∈ is, pointerValidAfter i v = v) {s : State}
    (hs : s.engine.pointerValid = v) : ∃ outs t, trace is s = some (outs, t) ∧ t.engine.pointerValid = v := by
  induction is generalizing s with
  | nil => exact ⟨[], s, rfl, hs⟩
  | cons i is ih =>
    obtain ⟨hi, his⟩ := List.forall_mem_cons.1 h
    obtain ⟨u, he, hu⟩ := exec_pointerValid i s
    obtain ⟨outs, t, htrace, ht⟩ := ih his (hu.trans (hs ▸ hi))
    exact ⟨u.out :: outs, t, by rw [trace_cons is he, htrace, Option.map_some], ht⟩

/-! ## The data form of BUS_DATA (41_bus_engine.md R84) -/

/-- A row that is written advances the pointer and leaves the rest of the engine. -/
theorem RowEffect.write_engine {r : RegSel} {s t : State} {b : Byte} (h : RowEffect r s t)
    (hev : s.event = some (.write b)) : t.engine = s.engine.advance := by
  cases h with
  | idle hnone => simp [hev] at hnone
  | serve c hread hr => simp [hev] at hread
  | pop hread hr => simp [hev] at hread
  | _ => rfl

/-- With a latched pointer, BUS_DATA is the write at the row that the pointer decodes to. -/
theorem exec_busData_row (b : Byte) {s : State} (h : s.engine.pointerValid = true) :
    exec (.busData b) s = exec (decodeReg s.engine.ptr) { s with event := some (.write b) } :=
  (execBusData_data b s h).trans (exec_decodeReg { s with event := some (.write b) }).symm

/-- With a latched pointer, BUS_DATA advances the pointer, and the engine changes in nothing else. -/
theorem exec_busData_engine (b : Byte) {s : State} (h : s.engine.pointerValid = true) :
    ∃ u, exec (.busData b) s = .next u ∧ u.engine = s.engine.advance := by
  obtain ⟨u, he, hrow⟩ := byteEvent_effect (.write b) s
  exact ⟨u, (execBusData_data b s h).trans he, hrow.write_engine rfl⟩

/-! ## The statement (R118) -/

/-- STOP and ABORT leave the same state. -/
theorem exec_ending {i : Instr} (h : i = .busStop ∨ i = .busAbort) (s : State) :
    exec i s = .next (stopTransaction s) := by
  rcases h with rfl | rfl <;> rfl

/-- Settles O21: what stands between keeps pointer-valid, cleared by the ending or set by the pointer byte, and BUS_DATA
takes its form from it. -/
theorem newTransactionNeedsANewPointer : Obligations.NewTransactionNeedsANewPointer := by
  refine ⟨fun s ending between p hending hbetween => ?pointer, fun s between b hs hbetween => ?data,
    fun s i hi => ?keep⟩
  case pointer =>
    obtain ⟨outs, t, htrace, ht⟩ := trace_keeps_pointerValid (v := false)
      (fun i hmem => pointerValidAfter_false (hbetween i hmem)) (s := stopTransaction s) rfl
    refine ⟨.nothing :: outs, t, ?_, ht, execBusData_pointer p t ht⟩
    rw [trace_cons between (exec_ending hending s), htrace, Option.map_some, stopTransaction_out]
  case data =>
    obtain ⟨outs, t, htrace, ht⟩ :=
      trace_keeps_pointerValid (fun i hmem => pointerValidAfter_true (hbetween i hmem)) hs
    obtain ⟨u, he, hu⟩ := exec_busData_engine b ht
    exact ⟨outs, t, u, htrace, ht, exec_busData_row b ht, he, hu, by rw [hu, Engine.advance_pointerValid, ht]⟩
  case keep =>
    obtain ⟨t, he, ht⟩ := exec_pointerValid i s
    have hkeeps : pointerValidAfter i s.engine.pointerValid = s.engine.pointerValid := by
      rcases hi with rfl | hproducer
      · rfl
      · exact pointerValidAfter_producer hproducer _
    exact ⟨t, he, ht.trans hkeeps⟩

end Sys2Proof.Machine
end

section
/-! PROOFS. The decoder and the encoder (30_encoding.md R65 to R72): one equation per `OP` for the operation words, the
unused payload bits as a shift and as a mask, the rows of the register-address decode, and the statements that follow. -/

namespace Sys2Proof.Laws

open Sys2Proof Sys2Proof.Machine

/-! ## The payload (R69) -/

/-- The payload bits from `n` up are all 0 exactly when the mask of those bits finds none. -/
theorem shiftRight_eq_zero_iff (p : BitVec 32) (n : Nat) : p >>> n = 0 ↔ p &&& (BitVec.allOnes 32 <<< n) = 0 := by
  constructor
  · intro h
    apply BitVec.eq_of_getLsbD_eq
    intro i hi
    by_cases hn : i < n
    · simp [hn]
    · have hbit := congrArg (·.getLsbD (i - n)) h
      simp only [BitVec.getLsbD_ushiftRight, show n + (i - n) = i by omega] at hbit
      simp [hbit]
  · intro h
    apply BitVec.eq_of_getLsbD_eq
    intro i hi
    by_cases hn : n + i < 32
    · have hbit := congrArg (·.getLsbD (n + i)) h
      simp only [BitVec.getLsbD_and, BitVec.getLsbD_shiftLeft, BitVec.getLsbD_allOnes] at hbit
      simpa [hn, hi] using hbit
    · simp [BitVec.getLsbD_of_ge p (n + i) (by omega)]

/-- An operand of `n` bits leaves the payload bits from `n` up 0. -/
theorem setWidth_shiftRight {n : Nat} (b : BitVec n) : b.setWidth 32 >>> n = 0 := by
  apply BitVec.eq_of_getLsbD_eq
  intro i _
  simp

/-- An operand of at most 32 bits is read back from the payload. -/
theorem extractLsb'_setWidth {n : Nat} (b : BitVec n) (h : n ≤ 32) : (b.setWidth 32).extractLsb' 0 n = b := by
  apply BitVec.eq_of_getLsbD_eq
  intro i hi
  simp [hi, show i < 32 by omega]

/-- A payload whose bits from `n` up are 0 is that of its low `n` bits. -/
theorem setWidth_extractLsb' {p : BitVec 32} {n : Nat} (h : p >>> n = 0) : (p.extractLsb' 0 n).setWidth 32 = p := by
  apply BitVec.eq_of_getLsbD_eq
  intro i hi
  by_cases hn : i < n
  · simp [hi, hn]
  · have hbit := congrArg (·.getLsbD (i - n)) h
    simp only [BitVec.getLsbD_ushiftRight, show n + (i - n) = i by omega] at hbit
    simp [hn, hbit]

/-- With no operand, every payload bit is unused. -/
theorem eq_zero_of_shiftRight {p : BitVec 32} (h : p >>> 0 = 0) : p = 0 := (BitVec.ushiftRight_zero p).symm.trans h

/-- A payload with no bit above bit 0 is that of its bit 0. -/
theorem ite_getLsbD_zero {p : BitVec 32} (h : p >>> 1 = 0) : (if p.getLsbD 0 then 1 else 0 : BitVec 32) = p := by
  have hp : p.toNat = 0 ∨ p.toNat = 1 := by
    have := congrArg BitVec.toNat h
    simp only [BitVec.toNat_ushiftRight, Nat.shiftRight_eq_div_pow] at this
    simp at this
    omega
  rcases hp with hp | hp
  · obtain rfl : p = 0 := BitVec.eq_of_toNat_eq hp
    rfl
  · obtain rfl : p = 1 := BitVec.eq_of_toNat_eq hp
    rfl

/-- A PUSH payload holds byte k of the record at bits [8k+7:8k]. -/
theorem payloadOfRecord_getLsbD (r : Record) {j : Nat} (hj : j < 8) :
    (payloadOfRecord r).getLsbD j = r.type.getLsbD j ∧
    (payloadOfRecord r).getLsbD (8 + j) = r.code.getLsbD j ∧
    (payloadOfRecord r).getLsbD (16 + j) = r.modMask.getLsbD j ∧
    (payloadOfRecord r).getLsbD (24 + j) = r.timestampLow.getLsbD j := by
  simp only [payloadOfRecord]
  simp only [BitVec.getLsbD_append, Nat.sub_sub]
  refine ⟨?_, ?_, ?_, ?_⟩ <;> grind

theorem recordOfPayload_payloadOfRecord (r : Record) : recordOfPayload (payloadOfRecord r) = r := by
  rw [recordOfPayload]
  congr 1 <;>
    (apply BitVec.eq_of_getLsbD_eq
     intro j hj
     obtain ⟨htype, hcode, hmask, htime⟩ := payloadOfRecord_getLsbD r hj
     simp_all [-BitVec.getLsbD_eq_getElem])

theorem payloadOfRecord_recordOfPayload (p : BitVec 32) : payloadOfRecord (recordOfPayload p) = p := by
  apply BitVec.eq_of_getLsbD_eq
  intro i hi
  have hj : i % 8 < 8 := Nat.mod_lt i (by decide)
  obtain ⟨htype, hcode, hmask, htime⟩ := payloadOfRecord_getLsbD (recordOfPayload p) hj
  have hbyte : i = i % 8 ∨ i = 8 + i % 8 ∨ i = 16 + i % 8 ∨ i = 24 + i % 8 := by omega
  rcases hbyte with h | h | h | h <;> rw [h]
  · rw [htype]; simp [recordOfPayload, hj]
  · rw [hcode]; simp [recordOfPayload, hj]
  · rw [hmask]; simp [recordOfPayload, hj]
  · rw [htime]; simp [recordOfPayload, hj]

theorem requireUnusedZero_instr {p : BitVec 32} {n : Nat} {i j : Instr} :
    requireUnusedZero p n i = .instr j ↔ p >>> n = 0 ∧ i = j := by
  unfold requireUnusedZero
  split_ifs with h
  · simp [h]
  · exact iff_of_false (by simp) fun hp => h hp.1

theorem requireUnusedZero_reserved {p : BitVec 32} {n : Nat} {i : Instr} :
    (∃ why, requireUnusedZero p n i = .reserved why) ↔ p &&& (BitVec.allOnes 32 <<< n) ≠ 0 := by
  rw [Ne, ← shiftRight_eq_zero_iff]
  unfold requireUnusedZero
  split_ifs with h
  · exact iff_of_false (by simp) fun hp => hp h
  · exact iff_of_true ⟨_, rfl⟩ h

/-! ## The operation words (R66, R67, R69) -/

theorem decodeOp_busData (p : BitVec 32) :
    decodeOp (opWord 0x0 p) = requireUnusedZero p 8 (.busData (p.extractLsb' 0 8)) := by simp [decodeOp]

theorem decodeOp_busRead (p : BitVec 32) : decodeOp (opWord 0x1 p) = requireUnusedZero p 0 .busRead := by
  simp [decodeOp]

theorem decodeOp_busStop (p : BitVec 32) : decodeOp (opWord 0x2 p) = requireUnusedZero p 0 .busStop := by
  simp [decodeOp]

theorem decodeOp_busAbort (p : BitVec 32) : decodeOp (opWord 0x3 p) = requireUnusedZero p 0 .busAbort := by
  simp [decodeOp]

theorem decodeOp_push (p : BitVec 32) : decodeOp (opWord 0x8 p) = .instr (.push (recordOfPayload p)) := by
  simp [decodeOp]

theorem decodeOp_setModmask (p : BitVec 32) :
    decodeOp (opWord 0x9 p) = requireUnusedZero p 8 (.setModmask (p.extractLsb' 0 8)) := by simp [decodeOp]

theorem decodeOp_setCursor (p : BitVec 32) :
    decodeOp (opWord 0xA p) = requireUnusedZero p 8 (.setCursor (p.extractLsb' 0 8)) := by simp [decodeOp]

theorem decodeOp_setTshigh (p : BitVec 32) :
    decodeOp (opWord 0xB p) = requireUnusedZero p 16 (.setTshigh (p.extractLsb' 0 16)) := by simp [decodeOp]

theorem decodeOp_setModvalid (p : BitVec 32) :
    decodeOp (opWord 0xC p) = requireUnusedZero p 1 (.setModvalid (p.getLsbD 0)) := by simp [decodeOp]

theorem decodeOp_reset (p : BitVec 32) : decodeOp (opWord 0xF p) = requireUnusedZero p 0 .reset := by
  simp [decodeOp]

theorem decodeOp_reservedOp {op : BitVec 4} (h : isReservedOp op) (p : BitVec 32) :
    decodeOp (opWord op p) = .reserved .reservedOp := by
  rcases h with rfl | rfl | rfl | rfl | rfl | rfl <;> simp [decodeOp]

theorem decodeOp_rsvNonzero {w : OpWord} (h : rsvField w ≠ 0) : decodeOp w = .reserved .rsvNonzero := by
  rw [decodeOp, if_neg h]

/-- An `OP` is one of the ten operations or reserved. -/
theorem op_cases (op : BitVec 4) :
    op = 0x0 ∨ op = 0x1 ∨ op = 0x2 ∨ op = 0x3 ∨ op = 0x8 ∨ op = 0x9 ∨ op = 0xA ∨ op = 0xB ∨ op = 0xC ∨ op = 0xF ∨
      isReservedOp op := by
  unfold isReservedOp
  revert op
  decide

/-- What decodes is an operation word with its `RSV` 0. -/
theorem rsvField_of_decodeOp {w : OpWord} {i : Instr} (h : decodeOp w = .instr i) : rsvField w = 0 := by
  by_contra hr
  simp [decodeOp_rsvNonzero hr] at h

/-- Everything a word with `RSV` 0 can decode to: a reserved `OP`, or the instruction of its `OP` unless an unused payload
bit is 1. -/
theorem decodeOp_opWord_cases (op : BitVec 4) (p : BitVec 32) :
    (isReservedOp op ∧ decodeOp (opWord op p) = .reserved .reservedOp) ∨
    ∃ n i, (¬ isReservedOp op ∧ unusedBits op = BitVec.allOnes 32 <<< n) ∧
      decodeOp (opWord op p) = requireUnusedZero p n i ∧
      (p >>> n = 0 → encode i = .op (opWord op p)) ∧ i.wellFormed = true := by
  rcases op_cases op with rfl | rfl | rfl | rfl | rfl | rfl | rfl | rfl | rfl | rfl | hop
  · exact .inr ⟨8, _, by unfold isReservedOp; decide, decodeOp_busData p,
      fun hp => by rw [encode, setWidth_extractLsb' hp], rfl⟩
  · exact .inr ⟨0, _, by unfold isReservedOp; decide, decodeOp_busRead p, fun hp => eq_zero_of_shiftRight hp ▸ rfl, rfl⟩
  · exact .inr ⟨0, _, by unfold isReservedOp; decide, decodeOp_busStop p, fun hp => eq_zero_of_shiftRight hp ▸ rfl, rfl⟩
  · exact .inr ⟨0, _, by unfold isReservedOp; decide, decodeOp_busAbort p, fun hp => eq_zero_of_shiftRight hp ▸ rfl, rfl⟩
  · exact .inr ⟨32, _, by unfold isReservedOp; decide,
      (decodeOp_push p).trans (requireUnusedZero_instr.2 ⟨BitVec.ushiftRight_eq_zero (le_refl 32), rfl⟩).symm,
      fun _ => by rw [encode, payloadOfRecord_recordOfPayload], rfl⟩
  · exact .inr ⟨8, _, by unfold isReservedOp; decide, decodeOp_setModmask p,
      fun hp => by rw [encode, setWidth_extractLsb' hp], rfl⟩
  · exact .inr ⟨8, _, by unfold isReservedOp; decide, decodeOp_setCursor p,
      fun hp => by rw [encode, setWidth_extractLsb' hp], rfl⟩
  · exact .inr ⟨16, _, by unfold isReservedOp; decide, decodeOp_setTshigh p,
      fun hp => by rw [encode, setWidth_extractLsb' hp], rfl⟩
  · exact .inr ⟨1, _, by unfold isReservedOp; decide, decodeOp_setModvalid p,
      fun hp => by rw [encode, ite_getLsbD_zero hp], rfl⟩
  · exact .inr ⟨0, _, by unfold isReservedOp; decide, decodeOp_reset p, fun hp => eq_zero_of_shiftRight hp ▸ rfl, rfl⟩
  · exact .inl ⟨hop, decodeOp_reservedOp hop p⟩

/-- Decoding an operation drops no bit of its word, and every operation is well formed. -/
theorem encode_of_decodeOp {w : OpWord} {i : Instr} (h : decodeOp w = .instr i) :
    encode i = .op w ∧ i.wellFormed = true := by
  have hw := opWord_fields w (rsvField_of_decodeOp h)
  rw [← hw] at h ⊢
  rcases decodeOp_opWord_cases (opField w) (payloadField w) with ⟨_, he⟩ | ⟨n, j, _, he, hencode, hwf⟩
  · simp [he] at h
  · rw [he, requireUnusedZero_instr] at h
    obtain ⟨hp, rfl⟩ := h
    exact ⟨hencode hp, hwf⟩

/-- With `RSV` 0, a word is reserved by its `OP` or by an unused payload bit. -/
theorem decodeOp_opWord_reserved (op : BitVec 4) (p : BitVec 32) :
    (∃ why, decodeOp (opWord op p) = .reserved why) ↔ isReservedOp op ∨ p &&& unusedBits op ≠ 0 := by
  rcases decodeOp_opWord_cases op p with ⟨hop, he⟩ | ⟨n, i, ⟨hop, hbits⟩, he, _⟩
  · exact iff_of_true ⟨_, he⟩ (.inl hop)
  · rw [he, requireUnusedZero_reserved, hbits]
    exact (or_iff_right hop).symm

/-! ## The register-select rows (R70) -/

/-- A pointer is the encoding of the row that it selects, and the row that carries it is well formed. -/
theorem encode_decodeReg (p : Byte) : encode (decodeReg p) = .regSel p ∧ (decodeReg p).wellFormed = true := by
  revert p
  decide

/-- A row of a range of pointers is selected by the pointer that it carries. -/
theorem decodeReg_of_selectReg {p : Byte} {r : RegSel} (h : selectReg p = r) : decodeReg p = r.instr p := by
  rw [decodeReg, h]

/-! ## The statements -/

/-- Settles O1: an operation by the equation of its `OP` and its operand read back from the payload, a row by the pointers
that select it. -/
theorem encodedInstructionDecodesToItself : Obligations.EncodedInstructionDecodesToItself := by
  intro i hi
  cases i
  case busData b =>
    exact (decodeOp_busData _).trans
      (requireUnusedZero_instr.2 ⟨setWidth_shiftRight b, by rw [extractLsb'_setWidth b (by decide)]⟩)
  case setModmask m =>
    exact (decodeOp_setModmask _).trans
      (requireUnusedZero_instr.2 ⟨setWidth_shiftRight m, by rw [extractLsb'_setWidth m (by decide)]⟩)
  case setCursor c =>
    exact (decodeOp_setCursor _).trans
      (requireUnusedZero_instr.2 ⟨setWidth_shiftRight c, by rw [extractLsb'_setWidth c (by decide)]⟩)
  case setTshigh t =>
    exact (decodeOp_setTshigh _).trans
      (requireUnusedZero_instr.2 ⟨setWidth_shiftRight t, by rw [extractLsb'_setWidth t (by decide)]⟩)
  case push r => exact (decodeOp_push _).trans (by rw [recordOfPayload_payloadOfRecord])
  case setModvalid v => cases v <;> decide
  case busRead | busStop | busAbort | reset => decide
  case regUnmapped0C0F p =>
    exact congrArg Decoded.instr (decodeReg_of_selectReg ((selectReg_unmapped0C0F p).2 (beq_iff_eq.1 hi)))
  case regUnmapped101F p =>
    exact congrArg Decoded.instr (decodeReg_of_selectReg ((selectReg_unmapped101F p).2 (beq_iff_eq.1 hi)))
  case regUnmapped203F p =>
    exact congrArg Decoded.instr (decodeReg_of_selectReg ((selectReg_unmapped203F p).2 (beq_iff_eq.1 hi)))
  case regUnmapped407F p =>
    exact congrArg Decoded.instr (decodeReg_of_selectReg ((selectReg_unmapped407F p).2 (beq_iff_eq.1 hi)))
  case regUnmapped80FF p =>
    exact congrArg Decoded.instr (decodeReg_of_selectReg ((selectReg_unmapped80FF p).2 (beq_iff_eq.1 hi)))
  all_goals decide

/-- Settles O2: an operation word by its fields, a pointer by its row. -/
theorem decodedWordIsTheEncoding : Obligations.DecodedWordIsTheEncoding := by
  intro c i h
  cases c with
  | op w => exact encode_of_decodeOp h
  | regSel p =>
    obtain rfl : decodeReg p = i := by simpa [decode] using h
    exact encode_decodeReg p

/-- Settles O3: a word with `RSV` not 0 is reserved by it, and any other by its `OP` or its payload. -/
theorem reservedWordsAreExactlyThese : Obligations.ReservedWordsAreExactlyThese := by
  intro w
  by_cases hr : rsvField w = 0
  · have h := decodeOp_opWord_reserved (opField w) (payloadField w)
    rw [opWord_fields w hr] at h
    simpa [hr] using h
  · exact iff_of_true ⟨_, decodeOp_rsvNonzero hr⟩ (.inr (.inl hr))

/-- Settles O4, word by word. -/
theorem specWordsDecodeAsListed : Obligations.SpecWordsDecodeAsListed := by
  unfold Obligations.SpecWordsDecodeAsListed
  decide

/-- Settles O5: each single pointer by evaluation, each range by the pointers that select its row. -/
theorem registerSelectFollowsItsRows : Obligations.RegisterSelectFollowsItsRows := by
  refine ⟨by decide, by decide, by decide, by decide, by decide, by decide, by decide, by decide, by decide, by decide,
    by decide, by decide, fun p h => ?_, fun p h => ?_, fun p h => ?_, fun p h => ?_, fun p h => ?_⟩
  · exact decodeReg_of_selectReg ((selectReg_unmapped0C0F p).2 h)
  · exact decodeReg_of_selectReg ((selectReg_unmapped101F p).2 h)
  · exact decodeReg_of_selectReg ((selectReg_unmapped203F p).2 h)
  · exact decodeReg_of_selectReg ((selectReg_unmapped407F p).2 h)
  · exact decodeReg_of_selectReg ((selectReg_unmapped80FF p).2 h)

end Sys2Proof.Laws
end

section
/-! PROOFS. The step (00_scope.md R7, R8): what an instruction can make of a state, said once for all of them; the step by
what it fetches; runs over presented words; and the statements that follow. -/

namespace Sys2Proof.Machine

open Sys2Proof Sys2Proof.Laws

/-! ## Everything an instruction can do -/

/-- What some instruction can make of `s`. -/
inductive Effect (s : State) : State → Prop where
  /-- A register-select row, with some byte event or none. -/
  | row (r : RegSel) (ev : Option ByteEvent) (t : State) (h : RowEffect r { s with event := ev } t) : Effect s t
  /-- A pointer byte. -/
  | latch (p : Byte) : Effect s { s with engine := s.engine.latch p, event := none, out := .nothing }
  /-- STOP or ABORT. -/
  | stop : Effect s (stopTransaction s)
  /-- PUSH on a ring that is not full. -/
  | store (r : Record) (h : s.ring.full = false) : Effect s { s with ring := s.ring.store r, out := .pushOk }
  /-- A producer operation that leaves the ring. -/
  | bank (b : Bank) (o : Output) : Effect s { s with bank := b, out := o }
  /-- RESET. -/
  | reset : Effect s { State.reset with input := s.input }

/-- Every instruction answers a next state, and this is what it can be. -/
theorem exec_effect (i : Instr) (s : State) : ∃ t, exec i s = .next t ∧ Effect s t := by
  rcases instr_cases i with ⟨b, rfl⟩ | rfl | rfl | rfl | ⟨r, rfl⟩ | ⟨m, rfl⟩ | ⟨c, rfl⟩ | ⟨h, rfl⟩ | ⟨v, rfl⟩ | rfl |
    ⟨r, p, rfl⟩
  · cases hv : s.engine.pointerValid with
    | true =>
      obtain ⟨t, he, hrow⟩ := byteEvent_effect (.write b) s
      exact ⟨t, (execBusData_data b s hv).trans he, .row _ _ t hrow⟩
    | false => exact ⟨_, execBusData_pointer b s hv, .latch b⟩
  · obtain ⟨t, he, hrow⟩ := byteEvent_effect .read s
    exact ⟨t, he, .row _ _ t hrow⟩
  · exact ⟨_, rfl, .stop⟩
  · exact ⟨_, rfl, .stop⟩
  · cases hf : s.ring.full with
    | true => exact ⟨_, execPush_full r s hf, .bank _ _⟩
    | false => exact ⟨_, execPush_room r s hf, .store r hf⟩
  · exact ⟨_, rfl, .bank _ _⟩
  · exact ⟨_, rfl, .bank _ _⟩
  · exact ⟨_, rfl, .bank _ _⟩
  · exact ⟨_, rfl, .bank _ _⟩
  · exact ⟨_, rfl, .reset⟩
  · obtain ⟨t, he, hrow⟩ := exec_row_effect r p s
    exact ⟨t, he, .row r s.event t hrow⟩

/-- What an instruction answered is what it can do. -/
theorem effect_of_exec {i : Instr} {s t : State} (h : exec i s = .next t) : Effect s t := by
  obtain ⟨u, he, heff⟩ := exec_effect i s
  obtain rfl : u = t := by simpa [he] using h
  exact heff

/-- A row ends the byte event. -/
theorem RowEffect.event_none {r : RegSel} {s t : State} (h : RowEffect r s t) : t.event = none := by
  cases h with
  | idle hnone => exact hnone
  | _ => rfl

/-- A row takes no presented word. -/
theorem RowEffect.input_eq {r : RegSel} {s t : State} (h : RowEffect r s t) : t.input = s.input := by
  cases h with
  | pop hev hr => simp [readFifoPop]
  | _ => rfl

/-- An instruction starts no byte event. -/
theorem Effect.event_none {s t : State} (h : Effect s t) (hs : s.event = none) : t.event = none := by
  cases h with
  | row r ev t hrow => exact hrow.event_none
  | store r hf => exact hs
  | bank b o => exact hs
  | _ => rfl

/-- An instruction takes no presented word. -/
theorem Effect.input_eq {s t : State} (h : Effect s t) : t.input = s.input := by
  cases h with
  | row r ev t hrow => exact hrow.input_eq
  | _ => rfl

/-! ## The step, by what it fetches -/

theorem step_event {s : State} {ev : ByteEvent} (h : s.event = some ev) : step s = exec (decodeReg s.engine.ptr) s := by
  simp [step, fetch, h]

theorem step_idle {s : State} (hev : s.event = none) (hin : s.input = []) : step s = .next (idleState s) := by
  simp [step, fetch, hev, hin]

theorem step_instr {s : State} {w : OpWord} {rest : List OpWord} {i : Instr} (hev : s.event = none)
    (hin : s.input = w :: rest) (hw : decodeOp w = .instr i) : step s = exec i { s with input := rest } := by
  simp [step, fetch, hev, hin, hw]

theorem step_reserved {s : State} {w : OpWord} {rest : List OpWord} {why : ReservedCase} (hev : s.event = none)
    (hin : s.input = w :: rest) (hw : decodeOp w = .reserved why) : step s = .refused (.reservedEncoding why) := by
  simp [step, fetch, hev, hin, hw]

/-! ## Runs -/

/-- A run whose first step answers goes on from that answer. -/
theorem run_succ {s t : State} (k : Nat) (h : step s = .next t) :
    Host.Core.run core (k + 1) s = Host.Core.run core k t := by
  have hstep : core.step s = .next t := h
  simp only [Host.Core.run, hstep]

/-- A presented operation is performed, and the next state presents the words after it. -/
theorem step_presented {s : State} {w : OpWord} {rest : List OpWord} {i : Instr} (hev : s.event = none)
    (hin : s.input = w :: rest) (hw : decodeOp w = .instr i) :
    ∃ t, step s = .next t ∧ t.event = none ∧ t.input = rest := by
  obtain ⟨t, he, heff⟩ := exec_effect i { s with input := rest }
  exact ⟨t, (step_instr hev hin hw).trans he, heff.event_none hev, heff.input_eq⟩

/-! ## The statements -/

/-- Settles O6: the step by its fetched word; what decodes is well formed. -/
theorem stepRunsThePresentedOperation : Obligations.StepRunsThePresentedOperation :=
  fun _ _ _ _ hev hin hw => ⟨(encode_of_decodeOp hw).2, step_instr hev hin hw⟩

/-- Settles O7: the step by its byte event. -/
theorem stepRunsThePointedRow : Obligations.StepRunsThePointedRow := fun _ _ => step_event rfl

/-- Settles O8: the step by its reserved word. -/
theorem stepRefusesAReservedWord : Obligations.StepRefusesAReservedWord :=
  fun _ _ _ _ hev hin hw => step_reserved hev hin hw

/-- Settles O9: the step by its empty input. -/
theorem stepWithNothingPresentedIsIdle : Obligations.StepWithNothingPresentedIsIdle :=
  fun _ hev hin => step_idle hev hin

/-- Settles O10: the row that the pointer matches is the meaning of the instruction it decodes to. -/
theorem byteEventRunsThePointedRow : Obligations.ByteEventRunsThePointedRow :=
  fun s b => ⟨(exec_decodeReg { s with event := some .read }).symm, exec_busData_row b⟩

/-- Settles O11: a byte event under way is ended by its row, and no other step starts one. -/
theorem everyStepEndsItsByteEvent : Obligations.EveryStepEndsItsByteEvent := by
  intro s t ht
  rcases step_cases s with ⟨_, he⟩ | ⟨hev, _, he⟩ | ⟨w, rest, i, hev, _, _, he⟩ | ⟨w, rest, why, _, _, _, he⟩ <;>
    rw [he] at ht
  · obtain ⟨u, hu, hrow⟩ := exec_row_effect (selectReg s.engine.ptr) s.engine.ptr s
    obtain rfl : u = t := by simpa using hu.symm.trans ht
    exact hrow.event_none
  · obtain rfl : idleState s = t := by simpa using ht
    exact hev
  · exact (effect_of_exec ht).event_none hev
  · cases ht

/-- Settles O12: every instruction answers a next state. -/
theorem everyInstructionCompletes : Obligations.EveryInstructionCompletes := by
  intro i s
  obtain ⟨t, he, _⟩ := exec_effect i s
  exact ⟨t, he⟩

/-- Settles O13, by induction on the presented words. -/
theorem everyPresentedSequenceRunsToItsEnd : Obligations.EveryPresentedSequenceRunsToItsEnd := by
  intro ws
  induction ws with
  | nil => exact fun s hev hin _ => ⟨s, rfl, hin, hev⟩
  | cons w rest ih =>
    intro s hev hin hws
    obtain ⟨⟨i, hw⟩, hrest⟩ := List.forall_mem_cons.1 hws
    obtain ⟨t, hstep, htev, htin⟩ := step_presented hev hin hw
    obtain ⟨u, hrun, hu⟩ := ih t htev htin hrest
    exact ⟨u, (run_succ rest.length hstep).trans hrun, hu⟩

end Sys2Proof.Machine
end

section
/-! PROOFS. The invariants of 10_state.md R44: what they ask of the ring and of the engine, kept by every update, and the
statements that follow. -/

namespace Sys2Proof.Machine

open Sys2Proof

/-! ## The invariants of the parts -/

/-- What R44 asks of the ring: `full = 1 ⇒ head = tail`. The bound on `count` holds of every ring. -/
def Ring.Inv (r : Ring) : Prop := r.full = true → r.head = r.tail

/-- What R44 asks of the engine. The bound on `cacheOffset` holds of every engine. -/
structure Engine.Inv (e : Engine) : Prop where
  sub_in_width : e.subIndex.toNat < width e.ptr
  offset_zero : e.cacheValid = false → e.cacheOffset = 0

/-- The invariants are those of the ring and of the engine. -/
theorem State.inv_iff (s : State) : s.Inv ↔ s.ring.Inv ∧ s.engine.Inv :=
  ⟨fun h => ⟨h.full_meets, h.sub_in_width, h.offset_zero⟩,
    fun h => ⟨h.1, s.ring.count_le, h.2.sub_in_width, h.2.offset_zero, by have := s.engine.cacheOffset.isLt; omega⟩⟩

theorem Ring.Inv.store {r : Ring} (hf : r.full = false) (rec : Record) : (r.store rec).Inv := by
  intro h
  simpa [hf] using h

theorem Ring.Inv.drop (r : Ring) : r.drop.Inv := by
  intro h
  simp at h

theorem Engine.Inv.advance {e : Engine} (h : e.cacheValid = false → e.cacheOffset = 0) : e.advance.Inv :=
  ⟨e.advance_in_width, by simpa using h⟩

theorem Engine.Inv.latch {e : Engine} (h : e.Inv) (p : Byte) : (e.latch p).Inv := ⟨width_pos p, h.offset_zero⟩

theorem Engine.Inv.endTransaction (e : Engine) : e.endTransaction.Inv := ⟨width_pos e.ptr, fun _ => rfl⟩

/-- A cache that was valid and is passed ends with its offset at 0. -/
theorem Engine.passCached_offset_zero {e : Engine} (h : e.cacheValid = true) :
    e.passCached.cacheValid = false → e.passCached.cacheOffset = 0 := by
  by_cases ho : e.cacheOffset = 3
  · simp [e.passCached_last ho]
  · simp [e.passCached_more ho, h]

/-- A filled cache is valid. -/
@[simp] theorem State.fillCache_cacheValid (s : State) : s.fillCache.engine.cacheValid = true := by
  rcases s.fillCache_cases with ⟨hv, e⟩ | ⟨_, _, e⟩ | ⟨_, _, e⟩ <;> simp [e]
  exact hv

theorem State.fillCache_ring_inv {s : State} (h : s.ring.Inv) : s.fillCache.ring.Inv := by
  rcases s.fillCache_cases with ⟨_, e⟩ | ⟨_, _, e⟩ | ⟨_, _, e⟩ <;> rw [e]
  · exact h
  · exact .drop s.ring
  · exact h

/-! ## Every effect keeps them -/

theorem RowEffect.inv {r : RegSel} {s t : State} (h : RowEffect r s t) (hs : s.Inv) : t.Inv := by
  obtain ⟨hring, hengine⟩ := s.inv_iff.1 hs
  cases h with
  | idle hev => exact (State.inv_iff _).2 ⟨hring, hengine⟩
  | pop hev hr =>
    exact (State.inv_iff _).2
      ⟨State.fillCache_ring_inv hring, .advance (Engine.passCached_offset_zero s.fillCache_cacheValid)⟩
  | _ => exact (State.inv_iff _).2 ⟨hring, .advance hengine.offset_zero⟩

theorem State.reset_inv : State.reset.Inv :=
  (State.inv_iff _).2 ⟨fun _ => rfl, width_pos _, fun _ => rfl⟩

theorem Effect.inv {s t : State} (h : Effect s t) (hs : s.Inv) : t.Inv := by
  obtain ⟨hring, hengine⟩ := s.inv_iff.1 hs
  cases h with
  | row r ev t hrow => exact hrow.inv ((State.inv_iff _).2 ⟨hring, hengine⟩)
  | latch p => exact (State.inv_iff _).2 ⟨hring, hengine.latch p⟩
  | stop => exact (State.inv_iff _).2 ⟨hring, .endTransaction s.engine⟩
  | store r hf => exact (State.inv_iff _).2 ⟨.store hf r, hengine⟩
  | bank b o => exact (State.inv_iff _).2 ⟨hring, hengine⟩
  | reset => exact (State.inv_iff _).2 (State.reset.inv_iff.1 State.reset_inv)

/-! ## The statements -/

/-- Settles O41: the ring at reset is not full, and the engine is at byte 0 with no cache. -/
theorem resetMeetsTheInvariants : Obligations.ResetMeetsTheInvariants := State.reset_inv

/-- Settles O42: a step performs one instruction or nothing, and every effect of an instruction keeps the invariants. -/
theorem everyStepKeepsTheInvariants : Obligations.EveryStepKeepsTheInvariants := by
  intro s t hs ht
  have hparts := s.inv_iff.1 hs
  rcases step_cases s with ⟨_, he⟩ | ⟨_, _, he⟩ | ⟨w, rest, i, _, _, _, he⟩ | ⟨w, rest, why, _, _, _, he⟩ <;> rw [he] at ht
  · exact (effect_of_exec ht).inv hs
  · obtain rfl : idleState s = t := by simpa using ht
    exact (State.inv_iff _).2 hparts
  · exact (effect_of_exec ht).inv ((State.inv_iff _).2 hparts)
  · cases ht

end Sys2Proof.Machine
end

section
/-! PROOFS. The rest of the register file and of the operations (41_bus_engine.md, 42_register_file.md, 40_fifo.md,
70_reset_and_hazards.md): `Advance()`, the forms of the remaining rows, the byte event at any pointer, and the statements
that follow. -/

namespace Sys2Proof.Machine

open Sys2Proof Sys2Proof.Laws

/-! ## `Advance()` (R39, R83) -/

/-- Every register but four is one byte wide. -/
theorem width_eq_one {p : Byte} (h1 : p ≠ 0x01) (h5 : p ≠ 0x05) (h8 : p ≠ 0x08) (hA : p ≠ 0x0A) : width p = 1 := by
  rw [width, if_neg h1, if_neg h5, if_neg h8, if_neg hA]

/-- From byte 0, fewer advances than the register has bytes stay in it. -/
theorem Engine.advance_iterate {e : Engine} (h0 : e.subIndex = 0) {k : Nat} (hk : k < width e.ptr) :
    Engine.advance^[k] e = { e with subIndex := BitVec.ofNat 2 k } := by
  induction k with
  | zero => rw [Function.iterate_zero_apply, show BitVec.ofNat 2 0 = e.subIndex from h0.symm]
  | succ k ih =>
    have hw := width_le e.ptr
    have hk4 : (BitVec.ofNat 2 k).toNat = k := by rw [BitVec.toNat_ofNat]; omega
    rw [Function.iterate_succ_apply', ih (by omega), Engine.advance_within _ (by simpa [hk4] using hk)]
    simp [BitVec.ofNat_add]

/-- From byte 0, as many advances as the register has bytes reach byte 0 of the next address. -/
theorem Engine.advance_iterate_width {e : Engine} (h0 : e.subIndex = 0) :
    Engine.advance^[width e.ptr] e = { e with ptr := e.ptr + 1 } := by
  have hpos := width_pos e.ptr
  have hw := width_le e.ptr
  obtain ⟨n, hn⟩ : ∃ n, width e.ptr = n + 1 := ⟨width e.ptr - 1, by omega⟩
  have hn4 : (BitVec.ofNat 2 n).toNat = n := by rw [BitVec.toNat_ofNat]; omega
  rw [hn, Function.iterate_succ_apply', Engine.advance_iterate h0 (by omega),
    Engine.advance_across _ (by simp [hn4, hn]), ← h0]

/-- Settles O14: the widths by their table, `Advance()` by its two branches. -/
theorem advanceMovesToTheNextByte : Obligations.AdvanceMovesToTheNextByte :=
  ⟨width_fwVersion, width_fifoPop, width_ledState, width_clockHigh, fun _ => width_eq_one,
    fun e => ⟨e.advance_within, e.advance_across⟩⟩

/-- Settles O15: by induction on the number of advances, and one more across the end of the register. -/
theorem advancesVisitEveryByteInOrder : Obligations.AdvancesVisitEveryByteInOrder :=
  fun _ _ h0 => ⟨Engine.advance_iterate h0, Engine.advance_iterate_width h0⟩

/-! ## The operations that no row takes part in -/

/-- Settles O16: the pointer form of BUS_DATA. -/
theorem busDataLatchesThePointer : Obligations.BusDataLatchesThePointer := execBusData_pointer

/-- Settles O20: STOP and ABORT have one effect. -/
theorem stopAndAbortEndTheTransaction : Obligations.StopAndAbortEndTheTransaction :=
  fun s => ⟨exec_ending (.inl rfl) s, exec_ending (.inr rfl) s⟩

/-- Storing into a ring that is not full, as one update. -/
theorem Ring.store_eq {r : Ring} (h : r.full = false) (rec : Record) :
    r.store rec = { r with
      slots := r.slots.set r.head.toNat rec r.head.isLt,
      head := r.head + 1,
      full := decide (r.head + 1 = r.tail) } := by
  by_cases hm : r.head + 1 = r.tail
  · simp only [Ring.store, hm, if_true, decide_true]
    rfl
  · simp only [Ring.store, hm, if_false, decide_false, h]
    rfl

/-- Settles O22: the two branches of PUSH, the second with the ring that it stores. -/
theorem pushStoresOrFails : Obligations.PushStoresOrFails := by
  intro r s
  refine ⟨execPush_full r s, fun hf => ?_⟩
  rw [execPush_room r s hf, Ring.store_eq hf]

theorem exec_setModvalid (v : Bool) (s : State) :
    exec (.setModvalid v) s = .next { s with bank := { s.bank with modValid := v }, out := .nothing } := rfl

/-- Settles O26: by the operation's equation. -/
theorem setModValidWritesModValid : Obligations.SetModValidWritesModValid := exec_setModvalid

theorem exec_reset (s : State) : exec .reset s = .next { State.reset with input := s.input } := rfl

@[simp] theorem Ring.reset_empty : Ring.reset.empty = true := rfl

/-- Settles O27: each field of the reset state, and the two live values on an empty ring with no flag set. -/
theorem resetSetsEveryField : Obligations.ResetSetsEveryField := by
  intro s
  refine ⟨_, exec_reset s, ?_⟩
  simp [statusByte, statusBit, intN]

/-! ## The forms of the remaining rows -/

theorem exec_regStatus (s : State) : exec .regStatus s = byteEventAt (plainRead statusByte) discardWrite s := rfl

theorem exec_regModMask (s : State) :
    exec .regModMask s =
      byteEventAt (plainRead fun s => s.bank.modMask) (bankWrite fun b bank => { bank with modMask := b }) s := rfl

theorem exec_regFifoPop (s : State) : exec .regFifoPop s = byteEventAt readFifoPop discardWrite s := rfl

theorem exec_regLedState (s : State) :
    exec .regLedState s =
      byteEventAt (plainRead fun s => wireByte 0x08 (ledStateBytes s.bank) s.engine.subIndex) writeLedState s := rfl

theorem exec_regScanRate (s : State) :
    exec .regScanRate s =
      byteEventAt (plainRead fun s => s.bank.scanRateHz.extractLsb' 0 8)
        (bankWrite fun b bank => { bank with scanRateHz := b.setWidth 16 }) s := rfl

theorem exec_regClockHigh (s : State) :
    exec .regClockHigh s =
      byteEventAt (plainRead fun s => wireByte 0x0A (clockHighBytes s.bank) s.engine.subIndex) discardWrite s := rfl

/-- The rows with no register behind them. -/
def isUnmappedRow : RegSel → Bool
  | .unmapped0B | .unmapped0C0F | .unmapped101F | .unmapped203F | .unmapped407F | .unmapped80FF => true
  | _ => false

theorem exec_unmapped {r : RegSel} (h : isUnmappedRow r = true) (p : Byte) (s : State) :
    exec (r.instr p) s = byteEventAt (plainRead fun _ => 0x00) discardWrite s := by
  cases r
  case unmapped0B | unmapped0C0F | unmapped101F | unmapped203F | unmapped407F | unmapped80FF => rfl
  all_goals cases h

/-! ## The bytes served -/

/-- A byte position that is not 3 is one of three. -/
theorem bytePos_cases {k : BytePos} (h : k ≠ 3) : k = 0 ∨ k = 1 ∨ k = 2 := by
  revert h
  revert k
  decide

/-- A read of LED_STATE within its width serves the LED byte at the sub-index. -/
theorem wireByte_ledState (s : State) {k : BytePos} (h : k ≠ 3) :
    wireByte 0x08 (ledStateBytes s.bank) k = registerByte 0x08 k s := by
  rcases bytePos_cases h with rfl | rfl | rfl <;> rfl

theorem wireByte_clockHigh (b : Bank) :
    wireByte 0x0A (clockHighBytes b) 0 = b.timestampHigh.extractLsb' 8 8 ∧
    wireByte 0x0A (clockHighBytes b) 1 = b.timestampHigh.extractLsb' 0 8 := ⟨rfl, rfl⟩

/-! ## The FIFO_POP row (R95) -/

/-- A read of FIFO_POP with a valid cache serves its next byte and passes it. -/
theorem readFifoPop_cached {s : State} (h : s.engine.cacheValid = true) :
    readFifoPop s = (s.engine.cachedByte, { s with engine := s.engine.passCached }) := by
  rcases s.fillCache_cases with ⟨_, e⟩ | ⟨hv, _⟩ | ⟨hv, _⟩
  · simp [readFifoPop, e]
  · simp [h] at hv
  · simp [h] at hv

/-- The cache is loaded and its first byte passed. -/
theorem Engine.loadCache_passCached (e : Engine) (r : Record) :
    (e.loadCache r).passCached = { e with cacheRecord := r, cacheValid := true, cacheOffset := 1 } := by
  rw [Engine.passCached_more _ (by simp)]
  rfl

/-- A read of FIFO_POP with no valid cache, on a ring that holds a record, pops the oldest and serves its type. -/
theorem readFifoPop_pop {s : State} (hv : s.engine.cacheValid = false) (he : s.ring.empty = false) :
    readFifoPop s = (s.ring.oldest.type, { s with
      ring := s.ring.drop,
      engine := { s.engine with cacheRecord := s.ring.oldest, cacheValid := true, cacheOffset := 1 } }) := by
  rw [← Engine.loadCache_passCached]
  simp [readFifoPop, State.fillCache, hv, Ring.pop_nonempty he, Engine.cachedByte, recordByte]

/-- A read of FIFO_POP with no valid cache, on an empty ring, makes the NOP record and serves its type. -/
theorem readFifoPop_made {s : State} (hv : s.engine.cacheValid = false) (he : s.ring.empty = true) :
    readFifoPop s = (0x00, { s with
      engine := { s.engine with
        cacheRecord := nopRecord s.bank.modMask, cacheValid := true, cacheOffset := 1 } }) := by
  rw [← Engine.loadCache_passCached]
  simp [readFifoPop, State.fillCache, hv, Ring.pop_empty he, Engine.cachedByte, recordByte, nopRecord]

/-- The row's answer to a read under way. -/
theorem exec_regFifoPop_read (s : State) :
    exec .regFifoPop { s with event := some .read } =
      .next ((readFifoPop { s with event := some .read }).2.closeEvent
        (.served (readFifoPop { s with event := some .read }).1)) := by
  rw [exec_regFifoPop, byteEventAt_read rfl]

/-- Settles O33: the cached byte, the popped record and the NOP record, one read each; a write is discarded. -/
theorem fifoPopRowPopsAndServes : Obligations.FifoPopRowPopsAndServes := by
  intro s b
  refine ⟨fun hv ho => ?more, fun hv ho => ?last, fun hv he => ?pop, fun hv he => ?made, ?write⟩
  case more =>
    rw [exec_regFifoPop_read, readFifoPop_cached (by exact hv), Engine.passCached_more _ (by exact ho)]
    rfl
  case last =>
    rw [exec_regFifoPop_read, readFifoPop_cached (by exact hv), Engine.passCached_last _ (by exact ho)]
    simp [Engine.cachedByte, ho, recordByte]
    rfl
  case pop =>
    rw [exec_regFifoPop_read, readFifoPop_pop (by exact hv) (by exact he)]
    rfl
  case made =>
    rw [exec_regFifoPop_read, readFifoPop_made (by exact hv) (by exact he)]
    rfl
  case write => rw [exec_regFifoPop, byteEventAt_discardWrite]

/-! ## The other rows -/

/-- Settles O30: a plain read of the status byte and a discarded write. -/
theorem statusRowIsLiveAndReadOnly : Obligations.StatusRowIsLiveAndReadOnly := by
  intro s b
  refine ⟨?read, ?write⟩
  case read =>
    rw [exec_regStatus, byteEventAt_plainRead]
    rfl
  case write => rw [exec_regStatus, byteEventAt_discardWrite]

/-- Settles O31: a plain read of the mask and a bank write of the whole byte. -/
theorem modMaskRowReadsAndOverrides : Obligations.ModMaskRowReadsAndOverrides := by
  intro s b
  refine ⟨?read, ?write⟩
  case read => rw [exec_regModMask, byteEventAt_plainRead]
  case write => rw [exec_regModMask, byteEventAt_bankWrite]

theorem setLed_eq_ledAfter (led : Vector Byte 3) {k : BytePos} (hk : k ≠ 3) (b : Byte) :
    setLed led k b = ledAfter led k b := setLed_eq led k b hk

/-- A write of LED_STATE within its width stores the byte, and emits LedUpdate at the third. -/
theorem exec_regLedState_write {s : State} (hk : s.engine.subIndex ≠ 3) (b : Byte) :
    exec .regLedState { s with event := some (.write b) } =
      .next (afterEvent { s with bank := { s.bank with ledState := ledAfter s.bank.ledState s.engine.subIndex b } }
        (if s.engine.subIndex = 2 then ledUpdateOf (ledAfter s.bank.ledState 2 b) else .nothing)) := by
  rw [exec_regLedState, byteEventAt_write rfl, writeLedState, setLed_eq_ledAfter _ hk]
  by_cases h2 : s.engine.subIndex = 2
  · simp only [h2, if_true]
    rfl
  · simp only [h2, if_false]
    rfl

/-- A read of LED_STATE within its width serves the byte at the sub-index. -/
theorem exec_regLedState_read {s : State} (hk : s.engine.subIndex ≠ 3) :
    exec .regLedState { s with event := some .read } =
      .next (afterEvent s (.served (registerByte 0x08 s.engine.subIndex s))) := by
  rw [exec_regLedState, byteEventAt_plainRead, wireByte_ledState _ (by exact hk)]
  rfl

/-- Settles O36: the LED byte at the sub-index, read and stored. -/
theorem ledStateRowStoresAndEmits : Obligations.LedStateRowStoresAndEmits :=
  fun _ b hk => ⟨exec_regLedState_read hk, exec_regLedState_write hk b⟩

/-- Settles O37: a plain read of the low byte, and a bank write of all 16 bits, which the producer's port reads back. -/
theorem scanRateRowZeroExtends : Obligations.ScanRateRowZeroExtends := by
  intro s b
  refine ⟨?read, ?write, ?port⟩
  case read => rw [exec_regScanRate, byteEventAt_plainRead]
  case write => rw [exec_regScanRate, byteEventAt_bankWrite]
  case port => rfl

/-- A read of CLOCK_HIGH serves the byte of the clock at the sub-index. -/
theorem exec_regClockHigh_read {s : State} {k : BytePos} (hk : s.engine.subIndex = k) :
    exec .regClockHigh { s with event := some .read } =
      .next (afterEvent s (.served (wireByte 0x0A (clockHighBytes s.bank) k))) := by
  rw [exec_regClockHigh, byteEventAt_plainRead, hk]

/-- Settles O38: both sub-indices lie within the width, so each read serves its byte of the clock. -/
theorem clockHighRowServesHighThenLow : Obligations.ClockHighRowServesHighThenLow := by
  intro s b
  obtain ⟨hhigh, hlow⟩ := wireByte_clockHigh s.bank
  refine ⟨fun hk => ?high, fun hk => ?low, ?write⟩
  case high => rw [exec_regClockHigh_read hk, hhigh]
  case low => rw [exec_regClockHigh_read hk, hlow]
  case write => rw [exec_regClockHigh, byteEventAt_discardWrite]

/-- A read at an unmapped row. -/
theorem exec_unmapped_read {r : RegSel} (h : isUnmappedRow r = true) (p : Byte) (s : State) :
    exec (r.instr p) { s with event := some .read } = .next (afterEvent s (.served 0x00)) := by
  rw [exec_unmapped h, byteEventAt_plainRead]

/-- Settles O39: the unmapped rows have one meaning. -/
theorem unmappedRowsServeZero : Obligations.UnmappedRowsServeZero := by
  intro s b p i hi
  obtain ⟨r, hr, rfl⟩ : ∃ r, isUnmappedRow r = true ∧ i = r.instr p := by
    simp only [List.mem_cons, List.not_mem_nil, or_false] at hi
    rcases hi with rfl | rfl | rfl | rfl | rfl | rfl
    exacts [⟨.unmapped0B, rfl, rfl⟩, ⟨.unmapped0C0F, rfl, rfl⟩, ⟨.unmapped101F, rfl, rfl⟩, ⟨.unmapped203F, rfl, rfl⟩,
      ⟨.unmapped407F, rfl, rfl⟩, ⟨.unmapped80FF, rfl, rfl⟩]
  exact ⟨exec_unmapped_read hr p s, by rw [exec_unmapped hr, byteEventAt_discardWrite]⟩

/-- Settles O40: of a row's effects, only the idle one needs no byte event. -/
theorem rowsWithNoByteEventChangeNothing : Obligations.RowsWithNoByteEventChangeNothing := by
  rintro s i ⟨p, rfl⟩
  obtain ⟨t, he, hrow⟩ := exec_row_effect (selectReg p) p { s with event := none }
  refine he.trans ?_
  cases hrow with
  | idle h => rfl
  | serve b h hr => cases h
  | pop h hr => cases h
  | discard b h => cases h
  | modMask b h hr => cases h
  | cfgFlags b h hr => cases h
  | scanRate b h hr => cases h
  | ledState b h hr => cases h

/-! ## The byte event at any pointer (R84, R85) -/

/-- A write at any pointer but those of the four writable registers is discarded. -/
theorem exec_decodeReg_discard {p : Byte} (h3 : p ≠ 0x03) (h6 : p ≠ 0x06) (h8 : p ≠ 0x08) (h9 : p ≠ 0x09) (b : Byte)
    (s : State) :
    exec (decodeReg p) { s with event := some (.write b) } = .next (afterEvent s .nothing) := by
  obtain ⟨t, he, hrow⟩ := exec_row_effect (selectReg p) p { s with event := some (.write b) }
  refine he.trans ?_
  cases hrow with
  | idle h => cases h
  | serve c h hr => cases h
  | pop h hr => cases h
  | discard c h => rfl
  | modMask c h hr => exact absurd ((selectReg_eq_modMask p).1 hr) h3
  | cfgFlags c h hr => exact absurd ((selectReg_eq_cfgFlags p).1 hr) h6
  | scanRate c h hr => exact absurd ((selectReg_eq_scanRate p).1 hr) h9
  | ledState c h hr => exact absurd ((selectReg_eq_ledState p).1 hr) h8

/-- The write table at any pointer but those of the four writable registers. -/
theorem bankAfterWrite_discard {p : Byte} (h3 : p ≠ 0x03) (h6 : p ≠ 0x06) (h8 : p ≠ 0x08) (h9 : p ≠ 0x09) (k : BytePos)
    (b : Byte) (bank : Bank) : bankAfterWrite p k b bank = bank := by
  unfold bankAfterWrite
  split
  · exact absurd (BitVec.eq_of_toNat_eq ‹_›) h3
  · exact absurd (BitVec.eq_of_toNat_eq ‹_›) h6
  · exact absurd (BitVec.eq_of_toNat_eq ‹_›) h8
  · exact absurd (BitVec.eq_of_toNat_eq ‹_›) h9
  · rfl

/-- The output of a host write of `b` on `s`: LedUpdate at the third LED byte. -/
def writeOutput (b : Byte) (s : State) : Output :=
  if s.engine.ptr = 0x08 ∧ s.engine.subIndex = 2 then ledUpdateOf (ledAfter s.bank.ledState 2 b) else .nothing

/-- A sub-index within the width of LED_STATE is not 3. -/
theorem ne_three_of_lt {k : BytePos} (h : k.toNat < 3) : k ≠ 3 := by
  rintro rfl
  exact absurd h (by decide)

/-- A sub-index within a width of two is 0 or 1. -/
theorem bytePos_lt_two {k : BytePos} (h : k.toNat < 2) : k = 0 ∨ k = 1 := by
  revert h
  revert k
  decide

/-- A write at the row of the pointer follows the write table. -/
theorem exec_pointedRow_write (b : Byte) {s : State} (hk : s.engine.subIndex.toNat < width s.engine.ptr) :
    exec (decodeReg s.engine.ptr) { s with event := some (.write b) } =
      .next (afterEvent { s with bank := bankAfterWrite s.engine.ptr s.engine.subIndex b s.bank } (writeOutput b s)) := by
  unfold writeOutput
  by_cases h3 : s.engine.ptr = 0x03
  · rw [h3, show decodeReg 0x03 = .regModMask by decide, exec_regModMask, byteEventAt_bankWrite]
    rfl
  by_cases h6 : s.engine.ptr = 0x06
  · rw [h6, show decodeReg 0x06 = .regCfgFlags by decide, exec_regCfgFlags, byteEventAt_bankWrite]
    rfl
  by_cases h8 : s.engine.ptr = 0x08
  · have hk3 : s.engine.subIndex.toNat < 3 := by simpa [h8] using hk
    rw [h8, show decodeReg 0x08 = .regLedState by decide, exec_regLedState_write (ne_three_of_lt hk3)]
    simp only [true_and]
    rfl
  by_cases h9 : s.engine.ptr = 0x09
  · rw [h9, show decodeReg 0x09 = .regScanRate by decide, exec_regScanRate, byteEventAt_bankWrite]
    rfl
  rw [exec_decodeReg_discard h3 h6 h8 h9, bankAfterWrite_discard h3 h6 h8 h9, if_neg fun h => h8 h.1]

/-- BUS_DATA with a latched pointer follows the write table. -/
theorem exec_busData_write (b : Byte) {s : State} (hv : s.engine.pointerValid = true)
    (hk : s.engine.subIndex.toNat < width s.engine.ptr) :
    exec (.busData b) s =
      .next (afterEvent { s with bank := bankAfterWrite s.engine.ptr s.engine.subIndex b s.bank } (writeOutput b s)) :=
  (exec_busData_row b hv).trans (exec_pointedRow_write b hk)

/-- Settles O17: the row that the pointer matches follows the write table. -/
theorem busDataWritesTheTable : Obligations.BusDataWritesTheTable :=
  fun b _ hs hv => exec_busData_write b hv hs.sub_in_width

/-- The read table at an unmapped pointer. -/
theorem registerByte_unmapped {p : Byte} (h : isUnmappedRow (selectReg p) = true) (k : BytePos) (s : State) :
    registerByte p k s = 0x00 := by
  have hge : 0x0B ≤ p.toNat := by
    revert h
    revert p
    decide
  unfold registerByte
  split
  case h_11 => rfl
  all_goals omega

/-- A read at any pointer but that of FIFO_POP serves the byte of the read table. -/
theorem exec_pointedRow_read {s : State} (h5 : s.engine.ptr ≠ 0x05)
    (hk : s.engine.subIndex.toNat < width s.engine.ptr) :
    exec (decodeReg s.engine.ptr) { s with event := some .read } =
      .next (afterEvent s (.served (registerByte s.engine.ptr s.engine.subIndex s))) := by
  cases hr : selectReg s.engine.ptr
  case deviceId =>
    obtain ⟨_, _, hread, _⟩ := deviceIdRowIsConstant s 0
    rw [decodeReg_of_selectReg hr, (selectReg_eq_deviceId _).1 hr]
    exact hread
  case fwVersion =>
    have hptr := (selectReg_eq_fwVersion _).1 hr
    obtain ⟨_, _, hmajor, hminor, _⟩ := fwVersionRowServesMajorThenMinor s 0
    rw [decodeReg_of_selectReg hr, hptr]
    rw [hptr, width_fwVersion] at hk
    rcases bytePos_lt_two hk with h0 | h1
    · rw [h0]
      exact hmajor h0
    · rw [h1]
      exact hminor h1
  case status =>
    rw [decodeReg_of_selectReg hr, (selectReg_eq_status _).1 hr]
    exact (statusRowIsLiveAndReadOnly s 0).1
  case modMask =>
    rw [decodeReg_of_selectReg hr, (selectReg_eq_modMask _).1 hr]
    exact (modMaskRowReadsAndOverrides s 0).1
  case fifoCount =>
    obtain ⟨_, _, _, hread, _⟩ := fifoCountRowServesTheCount s 0
    rw [Ring.queue_length] at hread
    rw [decodeReg_of_selectReg hr, (selectReg_eq_fifoCount _).1 hr]
    exact hread
  case fifoPop => exact absurd ((selectReg_eq_fifoPop _).1 hr) h5
  case cfgFlags =>
    obtain ⟨_, _, hread, _⟩ := cfgFlagsRowReadsAndStores s 0
    rw [decodeReg_of_selectReg hr, (selectReg_eq_cfgFlags _).1 hr]
    exact hread
  case cursor =>
    obtain ⟨_, _, hread, _⟩ := cursorRowIsReadOnly s 0
    rw [decodeReg_of_selectReg hr, (selectReg_eq_cursor _).1 hr]
    exact hread
  case ledState =>
    have hptr := (selectReg_eq_ledState _).1 hr
    rw [decodeReg_of_selectReg hr, hptr]
    rw [hptr, width_ledState] at hk
    exact exec_regLedState_read (ne_three_of_lt hk)
  case scanRate =>
    rw [decodeReg_of_selectReg hr, (selectReg_eq_scanRate _).1 hr]
    exact (scanRateRowZeroExtends s 0).1
  case clockHigh =>
    have hptr := (selectReg_eq_clockHigh _).1 hr
    obtain ⟨hhigh, hlow, _⟩ := clockHighRowServesHighThenLow s 0
    rw [decodeReg_of_selectReg hr, hptr]
    rw [hptr, width_clockHigh] at hk
    rcases bytePos_lt_two hk with h0 | h1
    · rw [h0]
      exact hhigh h0
    · rw [h1]
      exact hlow h1
  all_goals
    have hun : isUnmappedRow (selectReg s.engine.ptr) = true := by rw [hr]; rfl
    rw [decodeReg, exec_unmapped_read hun, registerByte_unmapped hun]

/-- Settles O18: the row that the pointer matches serves the byte of the read table. -/
theorem busReadServesTheTable : Obligations.BusReadServesTheTable :=
  fun s hs h5 => (byteEventRunsThePointedRow s 0).1.trans (exec_pointedRow_read h5 hs.sub_in_width)

/-! ## FIFO_POP by the queue -/

/-- The next record of a ring that holds one is its oldest. -/
theorem nextRecord_of_not_empty {s : State} (h : s.ring.empty = false) : nextRecord s = s.ring.oldest := by
  rw [nextRecord, Ring.queue_cons _ h]

theorem Ring.queue_of_empty {r : Ring} (h : r.empty = true) : r.queue = [] := by
  rw [← List.isEmpty_iff, Ring.queue_isEmpty, h]

/-- The next record of an empty ring is the NOP record. -/
theorem nextRecord_of_empty {s : State} (h : s.ring.empty = true) : nextRecord s = nopRecord s.bank.modMask := by
  rw [nextRecord, Ring.queue_of_empty h]
  rfl

/-- The ring after a pop: the oldest record is gone, if there was one. -/
def Ring.afterPop (r : Ring) : Ring := if r.empty then r else r.drop

@[simp] theorem Ring.afterPop_slots (r : Ring) : r.afterPop.slots = r.slots := by unfold Ring.afterPop; split <;> rfl
@[simp] theorem Ring.afterPop_head (r : Ring) : r.afterPop.head = r.head := by unfold Ring.afterPop; split <;> rfl

theorem Ring.afterPop_queue {r : Ring} (h : r.Inv) : r.afterPop.queue = r.queue.tail := by
  cases he : r.empty with
  | true => simp [Ring.afterPop, he, Ring.queue_of_empty he]
  | false => simpa [Ring.afterPop, he] using Ring.drop_queue r he h

/-- A read of FIFO_POP with no valid cache takes the next record out of the ring into the cache and serves its type. -/
theorem readFifoPop_next {s : State} (hv : s.engine.cacheValid = false) :
    readFifoPop s = ((nextRecord s).type, { s with
      ring := s.ring.afterPop,
      engine := { s.engine with cacheRecord := nextRecord s, cacheValid := true, cacheOffset := 1 } }) := by
  cases he : s.ring.empty with
  | true => simp [readFifoPop_made hv he, nextRecord_of_empty he, Ring.afterPop, he, nopRecord]
  | false => simp [readFifoPop_pop hv he, nextRecord_of_not_empty he, Ring.afterPop, he]

/-- BUS_READ at FIFO_POP with no valid cache. -/
theorem exec_busRead_next {s : State} (hptr : s.engine.ptr = 0x05) (hv : s.engine.cacheValid = false) :
    exec .busRead s = .next
      (afterEvent { s with
          ring := s.ring.afterPop,
          engine := { s.engine with cacheRecord := nextRecord s, cacheValid := true, cacheOffset := 1 } }
        (.served (nextRecord s).type)) := by
  rw [exec_busRead_fifoPop hptr, exec_regFifoPop_read, readFifoPop_next (by exact hv)]
  rfl

/-- Settles O19: the cached byte by the row; with no valid cache the next record, which leaves the queue. -/
theorem busReadPopsAtFifoPop : Obligations.BusReadPopsAtFifoPop := by
  intro s hs hptr
  obtain ⟨hmore, hlast, _⟩ := fifoPopRowPopsAndServes s 0
  rw [← exec_busRead_fifoPop hptr] at hmore hlast
  exact ⟨hmore, hlast, fun hv => ⟨s.ring.afterPop, Ring.afterPop_queue hs.full_meets, s.ring.afterPop_slots,
    s.ring.afterPop_head, exec_busRead_next hptr hv⟩⟩

end Sys2Proof.Machine
end

section
/-! PROOFS. The ring as a bounded queue (20_memory.md section 7): the live values by the queue, the pop of an instruction
said once, the flow of records over runs, and the statements that follow. -/

namespace Sys2Proof.Machine

open Sys2Proof Sys2Proof.Laws

/-! ## The live values, by the queue -/

/-- The ring is full exactly when it holds 64 records. -/
theorem Ring.full_eq (r : Ring) : r.full = decide (r.queue.length = 64) := by
  cases hf : r.full with
  | true => simp [Ring.count_full hf]
  | false => simp [(Ring.count_lt_of_not_full hf).ne]

/-- Settles O46: each bit is a flag's, and the two ring flags are the queue's. -/
theorem statusByteReportsTheQueue : Obligations.StatusByteReportsTheQueue := by
  intro s
  rw [Ring.queue_isEmpty, ← Ring.full_eq]
  simp [statusByte]

/-- Settles O47: the line looks at emptiness, which is the queue's. -/
theorem interruptLineFollowsTheQueue : Obligations.InterruptLineFollowsTheQueue := by
  intro s
  rw [intN, Ring.queue_isEmpty]

/-! ## The pop of an instruction -/

/-- Row `r` on `s` pops: it is FIFO_POP with a read under way and no valid cache. -/
def rowPops (r : RegSel) (s : State) : Bool := !s.engine.cacheValid && (r == .fifoPop && s.event == some .read)

/-- A row leaves the ring, or it pops and the next record is in the cache. -/
theorem RowEffect.ring_cases {r : RegSel} {s t : State} (h : RowEffect r s t) :
    (rowPops r s = false ∧ t.ring = s.ring) ∨
    (rowPops r s = true ∧ t.ring = s.ring.afterPop ∧ t.engine.cacheRecord = nextRecord s) := by
  cases h with
  | idle hev => exact .inl ⟨by simp [rowPops, hev], rfl⟩
  | serve b hev hr => exact .inl ⟨by simp [rowPops, hr], rfl⟩
  | pop hev hr =>
    cases hv : s.engine.cacheValid with
    | true => exact .inl ⟨by simp [rowPops, hv], by simp [readFifoPop_cached hv]⟩
    | false => exact .inr ⟨by simp [rowPops, hv, hev, hr], by simp [readFifoPop_next hv]⟩
  | discard b hev => exact .inl ⟨by simp [rowPops, hev], rfl⟩
  | modMask b hev hr => exact .inl ⟨by simp [rowPops, hev], rfl⟩
  | cfgFlags b hev hr => exact .inl ⟨by simp [rowPops, hev], rfl⟩
  | scanRate b hev hr => exact .inl ⟨by simp [rowPops, hev], rfl⟩
  | ledState b hev hr => exact .inl ⟨by simp [rowPops, hev], rfl⟩

theorem popsNow_iff (i : Instr) (s : State) :
    popsNow i s = true ↔ s.engine.cacheValid = false ∧
      (i = .busRead ∧ s.engine.ptr = 0x05 ∨ i = .regFifoPop ∧ s.event = some .read) := by
  simp [popsNow]

theorem rowPops_iff (r : RegSel) (s : State) :
    rowPops r s = true ↔ s.engine.cacheValid = false ∧ r = .fifoPop ∧ s.event = some .read := by
  simp [rowPops]

theorem popsNow_row (r : RegSel) (p : Byte) (s : State) : popsNow (r.instr p) s = rowPops r s := by
  rw [Bool.eq_iff_iff, popsNow_iff, rowPops_iff]
  cases r <;> simp [RegSel.instr]

theorem popsNow_busRead (s : State) :
    popsNow .busRead s = rowPops (selectReg s.engine.ptr) { s with event := some .read } := by
  rw [Bool.eq_iff_iff, popsNow_iff, rowPops_iff, selectReg_eq_fifoPop]
  simp

/-- An instruction but PUSH and RESET leaves the ring, or it pops and the next record is in the cache. -/
theorem exec_ring_cases {i : Instr} (hp : ∀ r, i ≠ .push r) (hr : i ≠ .reset) (s : State) :
    ∃ t, exec i s = .next t ∧
      ((popsNow i s = false ∧ t.ring = s.ring) ∨
       (popsNow i s = true ∧ t.ring = s.ring.afterPop ∧ t.engine.cacheRecord = nextRecord s)) := by
  rcases instr_cases i with ⟨b, rfl⟩ | rfl | rfl | rfl | ⟨r, rfl⟩ | ⟨m, rfl⟩ | ⟨c, rfl⟩ | ⟨h, rfl⟩ | ⟨v, rfl⟩ | rfl |
    ⟨r, p, rfl⟩
  · cases hv : s.engine.pointerValid with
    | true =>
      obtain ⟨t, he, hrow⟩ := byteEvent_effect (.write b) s
      refine ⟨t, (execBusData_data b s hv).trans he, .inl ⟨by simp [popsNow], ?_⟩⟩
      rcases hrow.ring_cases with ⟨_, hring⟩ | ⟨hpops, _⟩
      · exact hring
      · simp [rowPops] at hpops
    | false => exact ⟨_, execBusData_pointer b s hv, .inl ⟨by simp [popsNow], rfl⟩⟩
  · obtain ⟨t, he, hrow⟩ := byteEvent_effect .read s
    exact ⟨t, he, by rw [popsNow_busRead]; exact hrow.ring_cases⟩
  · exact ⟨_, rfl, .inl ⟨by simp [popsNow], rfl⟩⟩
  · exact ⟨_, rfl, .inl ⟨by simp [popsNow], rfl⟩⟩
  · exact absurd rfl (hp r)
  · exact ⟨_, rfl, .inl ⟨by simp [popsNow], rfl⟩⟩
  · exact ⟨_, rfl, .inl ⟨by simp [popsNow], rfl⟩⟩
  · exact ⟨_, rfl, .inl ⟨by simp [popsNow], rfl⟩⟩
  · exact ⟨_, rfl, .inl ⟨by simp [popsNow], rfl⟩⟩
  · exact absurd rfl hr
  · obtain ⟨t, he, hrow⟩ := exec_row_effect r p s
    exact ⟨t, he, by rw [popsNow_row]; exact hrow.ring_cases⟩

/-! ## The queue after an instruction -/

/-- PUSH appends to a queue of fewer than 64 records, and on one of 64 fails. -/
theorem execPush_queue (r : Record) (s : State) :
    ∃ t, exec (.push r) s = .next t ∧
      t.ring.queue = (if s.ring.queue.length < 64 then s.ring.queue ++ [r] else s.ring.queue) ∧
      t.out = if s.ring.queue.length < 64 then .pushOk else .pushFail := by
  cases hf : s.ring.full with
  | true => exact ⟨_, execPush_full r s hf, by simp [Ring.count_full hf]⟩
  | false =>
    exact ⟨_, execPush_room r s hf, by simp [Ring.count_lt_of_not_full hf, Ring.store_queue s.ring r hf]⟩

theorem queueAfter_of_not_push {i : Instr} (hp : ∀ r, i ≠ .push r) (hr : i ≠ .reset) (s : State) :
    queueAfter i s = if popsNow i s then s.ring.queue.tail else s.ring.queue := by
  cases i
  case push r => exact absurd rfl (hp r)
  case reset => exact absurd rfl hr
  all_goals rfl

/-- An instruction but PUSH and RESET leaves the queue, or pops its head. -/
theorem exec_queue {i : Instr} (hp : ∀ r, i ≠ .push r) (hr : i ≠ .reset) {s : State} (hs : s.ring.Inv) :
    ∃ t, exec i s = .next t ∧ t.ring.queue = queueAfter i s := by
  rw [queueAfter_of_not_push hp hr]
  obtain ⟨t, he, ⟨hpops, hring⟩ | ⟨hpops, hring, _⟩⟩ := exec_ring_cases hp hr s
  · exact ⟨t, he, by simp [hpops, hring]⟩
  · exact ⟨t, he, by simp [hpops, hring, Ring.afterPop_queue hs]⟩

@[simp] theorem Ring.reset_queue : Ring.reset.queue = [] := Ring.queue_of_empty rfl

/-- Settles O48: PUSH appends or fails, RESET empties, and any other instruction keeps the queue or pops its head. -/
theorem ringIsABoundedQueue : Obligations.RingIsABoundedQueue := by
  intro i s hs
  by_cases hp : ∃ r, i = .push r
  · obtain ⟨r, rfl⟩ := hp
    obtain ⟨t, he, hqueue, hout⟩ := execPush_queue r s
    exact ⟨t, he, hqueue, fun _ _ => hout⟩
  by_cases hr : i = .reset
  · subst hr
    exact ⟨_, exec_reset s, Ring.reset_queue, fun _ h => by cases h⟩
  obtain ⟨t, he, hqueue⟩ := exec_queue (fun r h => hp ⟨r, h⟩) hr ((State.inv_iff s).1 hs).1
  exact ⟨t, he, hqueue, fun r h => absurd ⟨r, h⟩ hp⟩

/-! ## The flow of records -/

/-- A run whose first operation answers goes on from that answer. -/
theorem recordFlow_cons {i : Instr} {s t : State} (is : List Instr) (h : exec i s = .next t) :
    recordFlow (i :: is) s = (recordFlow is t).map fun f =>
      (acceptedRecord i t ++ f.1, poppedRecord i s t ++ f.2.1, f.2.2) := by
  simp [recordFlow, h]

/-- An instruction keeps the records in order: what it accepts goes to the end, what it pops comes from the front. -/
theorem exec_recordFlow {i : Instr} (hr : i ≠ .reset) {s : State} (hs : s.Inv) :
    ∃ t, exec i s = .next t ∧ t.Inv ∧
      s.ring.queue ++ acceptedRecord i t = poppedRecord i s t ++ t.ring.queue := by
  by_cases hp : ∃ r, i = .push r
  · obtain ⟨r, rfl⟩ := hp
    obtain ⟨t, he, hqueue, hout⟩ := execPush_queue r s
    refine ⟨t, he, (effect_of_exec he).inv hs, ?_⟩
    by_cases hlen : s.ring.queue.length < 64
    · simp_all [acceptedRecord, poppedRecord, popsNow]
    · simp_all [acceptedRecord, poppedRecord, popsNow]
  · have hp' : ∀ r, i ≠ .push r := fun r h => hp ⟨r, h⟩
    have haccepted : ∀ t, acceptedRecord i t = [] := by
      intro t
      cases i
      case push r => exact absurd rfl (hp' r)
      all_goals rfl
    obtain ⟨t, he, hring⟩ := exec_ring_cases hp' hr s
    refine ⟨t, he, (effect_of_exec he).inv hs, ?_⟩
    rw [haccepted, List.append_nil]
    rcases hring with ⟨hpops, hring⟩ | ⟨hpops, hring, hrec⟩
    · simp [poppedRecord, hpops, hring]
    · cases hempty : s.ring.empty with
      | true => simp [poppedRecord, hpops, hring, Ring.queue_isEmpty, hempty, Ring.afterPop]
      | false =>
        rw [poppedRecord, hring, Ring.afterPop_queue ((State.inv_iff s).1 hs).1, hrec, nextRecord_of_not_empty hempty]
        simpa [hpops, Ring.queue_isEmpty, hempty] using Ring.queue_cons _ hempty

/-- Settles O49, by induction on the operations. -/
theorem recordsLeaveInTheOrderAccepted : Obligations.RecordsLeaveInTheOrderAccepted := by
  intro ops
  induction ops with
  | nil => exact fun s _ _ => ⟨[], [], s, rfl, by simp⟩
  | cons i is ih =>
    intro s hs hreset
    obtain ⟨hi, his⟩ : .reset ≠ i ∧ .reset ∉ is := by simpa using hreset
    obtain ⟨t, he, ht, hflow⟩ := exec_recordFlow (Ne.symm hi) hs
    obtain ⟨accepted, popped, u, hrun, hu⟩ := ih t ht his
    refine ⟨acceptedRecord i t ++ accepted, poppedRecord i s t ++ popped, u, ?_, ?_⟩
    · rw [recordFlow_cons is he, hrun, Option.map_some]
    · rw [← List.append_assoc, hflow, List.append_assoc, hu, List.append_assoc]

end Sys2Proof.Machine
end

section
/-! PROOFS. Unspecified contents (10_state.md R43, 93_implementation_defined.md U1 and U2): what two states that differ only
there share, kept by every update, read and write form, and the statements that follow. -/

namespace Sys2Proof.Machine

open Sys2Proof

/-! ## What such states share -/

theorem Ring.Same.refl (r : Ring) : r.Same r := ⟨rfl, rfl, rfl, rfl⟩

theorem Engine.Same.refl (e : Engine) : e.Same e := ⟨rfl, rfl, rfl, rfl, rfl, fun _ => rfl⟩

theorem Ring.Same.count_eq {r r' : Ring} (h : r.Same r') : r.count = r'.count := by
  rw [Ring.count, h.head_eq, h.tail_eq, h.full_eq, ← Ring.count]

theorem Ring.Same.empty_eq {r r' : Ring} (h : r.Same r') : r.empty = r'.empty := by
  rw [Ring.empty, h.head_eq, h.tail_eq, h.full_eq, ← Ring.empty]

/-- The next record popped is the same. -/
theorem Ring.Same.oldest_eq {r r' : Ring} (h : r.Same r') (hne : r.empty = false) : r.oldest = r'.oldest := by
  have hqueue := h.queue_eq
  rw [Ring.queue_cons r hne, Ring.queue_cons r' (h.empty_eq ▸ hne)] at hqueue
  exact (List.cons.inj hqueue).1

/-- A full ring leaves no slot unspecified. -/
theorem Ring.Same.eq_of_full {r r' : Ring} (h : r.Same r') (hf : r.full = true) : r = r' := by
  have hslots : r.slots = r'.slots := by
    ext i hi
    have hk : (BitVec.ofNat 6 i - r.tail).toNat < r.queue.length := by
      rw [Ring.queue_length, Ring.count_full hf]
      exact (BitVec.ofNat 6 i - r.tail).isLt
    have hindex : (r.tail + BitVec.ofNat 6 (BitVec.ofNat 6 i - r.tail).toNat).toNat = i := by
      rw [BitVec.ofNat_toNat, BitVec.setWidth_eq, BitVec.add_comm, BitVec.sub_add_cancel, BitVec.toNat_ofNat]
      omega
    have hget := List.getElem_of_eq h.queue_eq hk
    rw [Ring.queue_getElem, Ring.queue_getElem] at hget
    simpa only [slotOf, Fin.getElem_fin, BitVec.val_toFin, ← h.tail_eq, hindex] using hget
  obtain ⟨hhead, htail, hfull, _⟩ := h
  cases r
  cases r'
  simp_all

/-- An engine with a valid cache has nothing unspecified. -/
theorem Engine.Same.eq_of_valid {e e' : Engine} (h : e.Same e') (hv : e.cacheValid = true) : e = e' := by
  obtain ⟨hptr, hsub, hpv, hcv, hoff, hrec⟩ := h
  cases e
  cases e'
  simp_all

/-! ## Updates keep it -/

theorem Ring.Same.store {r r' : Ring} (h : r.Same r') (hf : r.full = false) (rec : Record) :
    (r.store rec).Same (r'.store rec) where
  head_eq := by simp [h.head_eq]
  tail_eq := by simp [h.tail_eq]
  full_eq := by simp [h.head_eq, h.tail_eq, h.full_eq]
  queue_eq := by rw [Ring.store_queue r rec hf, Ring.store_queue r' rec (h.full_eq ▸ hf), h.queue_eq]

/-- A full ring is equal outright; a ring that is not full loses the head of its queue. -/
theorem Ring.Same.drop {r r' : Ring} (h : r.Same r') (hne : r.empty = false) : r.drop.Same r'.drop := by
  cases hf : r.full with
  | true =>
    rw [← h.eq_of_full hf]
    exact .refl _
  | false =>
    have hf' : r'.full = false := h.full_eq ▸ hf
    exact ⟨h.head_eq, congrArg (· + 1) h.tail_eq, rfl, by
      rw [Ring.drop_queue r hne (by simp [hf]), Ring.drop_queue r' (h.empty_eq ▸ hne) (by simp [hf']), h.queue_eq]⟩

theorem Engine.Same.advance {e e' : Engine} (h : e.Same e') : e.advance.Same e'.advance := by
  obtain ⟨hptr, hsub, hpv, hcv, hoff, hrec⟩ := h
  unfold Engine.advance
  rw [hptr, hsub]
  split
  · exact ⟨rfl, rfl, hpv, hcv, hoff, hrec⟩
  · exact ⟨rfl, rfl, hpv, hcv, hoff, hrec⟩

theorem Engine.Same.latch {e e' : Engine} (h : e.Same e') (p : Byte) : (e.latch p).Same (e'.latch p) :=
  ⟨rfl, rfl, rfl, h.cacheValid_eq, h.offset_eq, h.record_eq⟩

theorem Engine.Same.endTransaction {e e' : Engine} (h : e.Same e') : e.endTransaction.Same e'.endTransaction :=
  ⟨h.ptr_eq, rfl, rfl, rfl, rfl, fun hv => by cases hv⟩

/-- Loading the cache overwrites what was unspecified. -/
theorem Engine.Same.loadCache_eq {e e' : Engine} (h : e.Same e') (r : Record) : e.loadCache r = e'.loadCache r := by
  rw [Engine.loadCache, h.ptr_eq, h.sub_eq, h.pointerValid_eq, ← Engine.loadCache]

theorem State.Same.closeEvent {s s' : State} (h : s.Same s') (o : Output) : (s.closeEvent o).Same (s'.closeEvent o) :=
  ⟨h.ring_same, h.bank_eq, h.engine_same.advance, rfl, h.input_eq, rfl⟩

theorem State.fillCache_valid {s : State} (hv : s.engine.cacheValid = true) : s.fillCache = s := by
  simp [State.fillCache, hv]

theorem State.fillCache_pop {s : State} (hv : s.engine.cacheValid = false) (he : s.ring.empty = false) :
    s.fillCache = { s with ring := s.ring.drop, engine := s.engine.loadCache s.ring.oldest } := by
  simp [State.fillCache, hv, Ring.pop_nonempty he]

theorem State.fillCache_made {s : State} (hv : s.engine.cacheValid = false) (he : s.ring.empty = true) :
    s.fillCache = { s with engine := s.engine.loadCache (nopRecord s.bank.modMask) } := by
  simp [State.fillCache, hv, Ring.pop_empty he]

/-- Filling the cache leaves equal engines and such rings. -/
theorem State.Same.fillCache {s s' : State} (h : s.Same s') :
    s.fillCache.engine = s'.fillCache.engine ∧ s.fillCache.ring.Same s'.fillCache.ring := by
  have hcv := h.engine_same.cacheValid_eq
  have hempty := h.ring_same.empty_eq
  cases hv : s.engine.cacheValid with
  | true =>
    rw [State.fillCache_valid hv, State.fillCache_valid (hcv ▸ hv)]
    exact ⟨h.engine_same.eq_of_valid hv, h.ring_same⟩
  | false =>
    cases he : s.ring.empty with
    | true =>
      rw [State.fillCache_made hv he, State.fillCache_made (hcv ▸ hv) (hempty ▸ he), h.bank_eq]
      exact ⟨h.engine_same.loadCache_eq _, h.ring_same⟩
    | false =>
      rw [State.fillCache_pop hv he, State.fillCache_pop (hcv ▸ hv) (hempty ▸ he), h.ring_same.oldest_eq he]
      exact ⟨h.engine_same.loadCache_eq _, h.ring_same.drop he⟩

/-! ## Read forms, write forms and rows keep it -/

/-- A read form that serves such states the same byte and leaves such states. -/
def ReadRespects (rd : ReadForm) : Prop := ∀ s s' : State, s.Same s' → (rd s).1 = (rd s').1 ∧ (rd s).2.Same (rd s').2

/-- A write form that emits the same output from such states and leaves such states. -/
def WriteRespects (wr : WriteForm) : Prop :=
  ∀ (b : Byte) (s s' : State), s.Same s' → (wr b s).1 = (wr b s').1 ∧ (wr b s).2.Same (wr b s').2

theorem readRespects_plain {byte : State → Byte} (h : ∀ s s' : State, s.Same s' → byte s = byte s') :
    ReadRespects (plainRead byte) := fun s s' hs => ⟨h s s' hs, hs⟩

theorem writeRespects_discard : WriteRespects discardWrite := fun _ _ _ hs => ⟨rfl, hs⟩

theorem writeRespects_bank (store : Byte → Bank → Bank) : WriteRespects (bankWrite store) := fun b _ _ hs =>
  ⟨rfl, hs.ring_same, congrArg (store b) hs.bank_eq, hs.engine_same, hs.event_eq, hs.input_eq, hs.out_eq⟩

theorem writeRespects_ledState : WriteRespects writeLedState := fun b s s' hs => by
  unfold writeLedState
  rw [hs.bank_eq, hs.engine_same.sub_eq]
  exact ⟨rfl, hs.ring_same, rfl, hs.engine_same, hs.event_eq, hs.input_eq, hs.out_eq⟩

theorem readRespects_fifoPop : ReadRespects readFifoPop := fun s s' hs => by
  obtain ⟨hengine, hring⟩ := hs.fillCache
  simp only [readFifoPop, hengine, true_and]
  exact ⟨hring, by simp [hs.bank_eq], .refl _, by simp [hs.event_eq], by simp [hs.input_eq], by simp [hs.out_eq]⟩

theorem byteEventAt_same {rd : ReadForm} {wr : WriteForm} (hrd : ReadRespects rd) (hwr : WriteRespects wr)
    {s s' : State} (h : s.Same s') : SameAnswer (byteEventAt rd wr s) (byteEventAt rd wr s') := by
  rcases hev : s.event with _ | ⟨_ | b⟩ <;> have hev' := h.event_eq.symm.trans hev
  · rw [byteEventAt_idle hev, byteEventAt_idle hev']
    exact .next _ _ ⟨h.ring_same, h.bank_eq, h.engine_same, h.event_eq, h.input_eq, rfl⟩
  · obtain ⟨hbyte, hsame⟩ := hrd s s' h
    rw [byteEventAt_read hev, byteEventAt_read hev', hbyte]
    exact .next _ _ (hsame.closeEvent _)
  · obtain ⟨hout, hsame⟩ := hwr b s s' h
    rw [byteEventAt_write hev, byteEventAt_write hev', hout]
    exact .next _ _ (hsame.closeEvent _)

theorem State.Same.statusByte_eq {s s' : State} (h : s.Same s') : statusByte s = statusByte s' := by
  rw [statusByte, h.ring_same.empty_eq, h.ring_same.full_eq, h.bank_eq, ← statusByte]

theorem State.Same.fifoCountByte_eq {s s' : State} (h : s.Same s') : fifoCountByte s = fifoCountByte s' := by
  rw [fifoCountByte, h.ring_same.count_eq, ← fifoCountByte]

/-- Every row answers such states with such states. -/
theorem exec_row_same (r : RegSel) (p : Byte) {s s' : State} (h : s.Same s') :
    SameAnswer (exec (r.instr p) s) (exec (r.instr p) s') := by
  cases r
  case deviceId => exact byteEventAt_same (readRespects_plain fun _ _ _ => rfl) writeRespects_discard h
  case fwVersion =>
    exact byteEventAt_same (readRespects_plain fun _ _ hs => by rw [hs.engine_same.sub_eq]) writeRespects_discard h
  case status => exact byteEventAt_same (readRespects_plain fun _ _ hs => hs.statusByte_eq) writeRespects_discard h
  case modMask =>
    exact byteEventAt_same (readRespects_plain fun _ _ hs => by rw [hs.bank_eq]) (writeRespects_bank _) h
  case fifoCount =>
    exact byteEventAt_same (readRespects_plain fun _ _ hs => hs.fifoCountByte_eq) writeRespects_discard h
  case fifoPop => exact byteEventAt_same readRespects_fifoPop writeRespects_discard h
  case cfgFlags =>
    exact byteEventAt_same (readRespects_plain fun _ _ hs => by rw [hs.bank_eq]) (writeRespects_bank _) h
  case cursor =>
    exact byteEventAt_same (readRespects_plain fun _ _ hs => by rw [hs.bank_eq]) writeRespects_discard h
  case ledState =>
    exact byteEventAt_same (readRespects_plain fun _ _ hs => by rw [hs.bank_eq, hs.engine_same.sub_eq])
      writeRespects_ledState h
  case scanRate =>
    exact byteEventAt_same (readRespects_plain fun _ _ hs => by rw [hs.bank_eq]) (writeRespects_bank _) h
  case clockHigh =>
    exact byteEventAt_same (readRespects_plain fun _ _ hs => by rw [hs.bank_eq, hs.engine_same.sub_eq])
      writeRespects_discard h
  all_goals exact byteEventAt_same (readRespects_plain fun _ _ _ => rfl) writeRespects_discard h

/-! ## Every instruction keeps it -/

/-- The byte event at the pointed register answers such states with such states. -/
theorem State.Same.byteEvent {s s' : State} (h : s.Same s') (ev : ByteEvent) :
    SameAnswer (byteEvent ev s) (byteEvent ev s') := by
  have hev : State.Same { s with event := some ev } { s' with event := some ev } :=
    ⟨h.ring_same, h.bank_eq, h.engine_same, rfl, h.input_eq, h.out_eq⟩
  have hrow := exec_row_same (selectReg s.engine.ptr) s.engine.ptr hev
  have hrow' : decodeReg s.engine.ptr = decodeReg s'.engine.ptr := by rw [h.engine_same.ptr_eq]
  rw [← decodeReg] at hrow
  unfold Machine.byteEvent
  rw [← exec_decodeReg, ← exec_decodeReg]
  simpa [← hrow'] using hrow

theorem State.Same.bankWrite {s s' : State} (h : s.Same s') (store : Bank → Bank) (o : Output) :
    State.Same { s with bank := store s.bank, out := o } { s' with bank := store s'.bank, out := o } :=
  ⟨h.ring_same, congrArg store h.bank_eq, h.engine_same, h.event_eq, h.input_eq, rfl⟩

theorem State.Same.stop {s s' : State} (h : s.Same s') : (stopTransaction s).Same (stopTransaction s') :=
  ⟨h.ring_same, h.bank_eq, h.engine_same.endTransaction, rfl, h.input_eq, rfl⟩

/-- Every instruction answers such states with such states. -/
theorem exec_same (i : Instr) {s s' : State} (h : s.Same s') : SameAnswer (exec i s) (exec i s') := by
  rcases instr_cases i with ⟨b, rfl⟩ | rfl | rfl | rfl | ⟨r, rfl⟩ | ⟨m, rfl⟩ | ⟨c, rfl⟩ | ⟨t, rfl⟩ | ⟨v, rfl⟩ | rfl |
    ⟨r, p, rfl⟩
  · cases hv : s.engine.pointerValid with
    | true =>
      rw [execBusData_data b s hv, execBusData_data b s' (h.engine_same.pointerValid_eq ▸ hv)]
      exact h.byteEvent _
    | false =>
      rw [execBusData_pointer b s hv, execBusData_pointer b s' (h.engine_same.pointerValid_eq ▸ hv)]
      exact .next _ _ ⟨h.ring_same, h.bank_eq, h.engine_same.latch b, rfl, h.input_eq, rfl⟩
  · exact h.byteEvent .read
  · exact .next _ _ h.stop
  · exact .next _ _ h.stop
  · cases hf : s.ring.full with
    | true =>
      rw [execPush_full r s hf, execPush_full r s' (h.ring_same.full_eq ▸ hf)]
      exact .next _ _ (h.bankWrite (fun b => { b with errorSticky := true }) _)
    | false =>
      rw [execPush_room r s hf, execPush_room r s' (h.ring_same.full_eq ▸ hf)]
      exact .next _ _ ⟨h.ring_same.store hf r, h.bank_eq, h.engine_same, h.event_eq, h.input_eq, rfl⟩
  · exact .next _ _ (h.bankWrite (fun b => { b with modMask := m }) _)
  · exact .next _ _ (h.bankWrite (fun b => { b with cursorState := c }) _)
  · exact .next _ _ (h.bankWrite (fun b => { b with timestampHigh := t }) _)
  · exact .next _ _ (h.bankWrite (fun b => { b with modValid := v }) _)
  · exact .next _ _ ⟨.refl _, rfl, .refl _, rfl, h.input_eq, rfl⟩
  · exact exec_row_same r p h

/-! ## The statements -/

/-- Settles O54: such states fetch the same, and every instruction answers them alike. -/
theorem unspecifiedContentsAreNeverObservable : Obligations.UnspecifiedContentsAreNeverObservable := by
  intro s s' h
  rcases step_cases s with ⟨⟨ev, hev⟩, he⟩ | ⟨hev, hin, he⟩ | ⟨w, rest, i, hev, hin, hw, he⟩ |
    ⟨w, rest, why, hev, hin, hw, he⟩ <;> have hev' := h.event_eq.symm.trans hev
  · rw [he, step_event hev', h.engine_same.ptr_eq]
    exact exec_same _ h
  · rw [he, step_idle hev' (h.input_eq ▸ hin)]
    exact .next _ _ ⟨h.ring_same, h.bank_eq, h.engine_same, h.event_eq, h.input_eq, rfl⟩
  · rw [he, step_instr hev' (h.input_eq ▸ hin) hw]
    exact exec_same i ⟨h.ring_same, h.bank_eq, h.engine_same, h.event_eq, rfl, h.out_eq⟩
  · rw [he, step_reserved hev' (h.input_eq ▸ hin) hw]
    exact .refused _

/-- Settles O55: the line, the status byte and the count look at indices and flags, the other ports at the bank. -/
theorem sameStatesLookTheSame : Obligations.SameStatesLookTheSame := by
  intro s s' h
  refine ⟨?_, ?_, ?_, ?_, h.statusByte_eq, h.ring_same.count_eq⟩
  · rw [intN, h.ring_same.empty_eq, ← intN]
  · rw [portCfgFlags, h.bank_eq, ← portCfgFlags]
  · rw [portScanRateHz, h.bank_eq, ← portScanRateHz]
  · rw [portLedState, h.bank_eq, ← portLedState]

end Sys2Proof.Machine
end

section
/-! PROOFS. Whole transactions (30_encoding.md R74, 70_reset_and_hazards.md section 3): runs joined end to end, the reads of
one record at FIFO_POP, the writes after a pointer, and the statements that follow. -/

namespace Sys2Proof.Machine

open Sys2Proof Sys2Proof.Laws

/-! ## Runs joined -/

/-- A run goes on from where the one before it ended. -/
theorem trace_append {is : List Instr} {s t : State} {outs : List Output} (js : List Instr)
    (h : trace is s = some (outs, t)) :
    trace (is ++ js) s = (trace js t).map fun r => (outs ++ r.1, r.2) := by
  induction is generalizing s outs with
  | nil =>
    obtain ⟨rfl, rfl⟩ : [] = outs ∧ s = t := by simpa using h
    simp
  | cons i is ih =>
    obtain ⟨u, he, _⟩ := exec_effect i s
    rw [trace_cons is he, Option.map_eq_some_iff] at h
    obtain ⟨⟨os, v⟩, hrun, heq⟩ := h
    obtain ⟨rfl, rfl⟩ : u.out :: os = outs ∧ v = t := by simpa using heq
    rw [List.cons_append, trace_cons _ he, ih hrun, Option.map_map]
    rfl

/-- Two runs, the second from where the first ended. -/
theorem trace_append_some {is js : List Instr} {s t u : State} {os ps : List Output} (h : trace is s = some (os, t))
    (h' : trace js t = some (ps, u)) : trace (is ++ js) s = some (os ++ ps, u) := by
  rw [trace_append js h, h', Option.map_some]

/-- An instruction and the run after it. -/
theorem trace_cons_some {i : Instr} {is : List Instr} {s t u : State} {os : List Output} (h : exec i s = .next t)
    (h' : trace is t = some (os, u)) : trace (i :: is) s = some (t.out :: os, u) := by
  rw [trace_cons is h, h', Option.map_some]

/-! ## Producer operations between the reads -/

/-- A producer operation leaves the engine and serves no byte. -/
theorem exec_producer {i : Instr} (h : i.agent = .producer) (s : State) :
    ∃ t, exec i s = .next t ∧ t.engine = s.engine ∧ servedByte t.out = none := by
  cases i
  case push r =>
    cases hf : s.ring.full with
    | true => exact ⟨_, execPush_full r s hf, rfl, rfl⟩
    | false => exact ⟨_, execPush_room r s hf, rfl, rfl⟩
  case setModmask m => exact ⟨_, rfl, rfl, rfl⟩
  case setCursor c => exact ⟨_, rfl, rfl, rfl⟩
  case setTshigh t => exact ⟨_, rfl, rfl, rfl⟩
  case setModvalid v => exact ⟨_, rfl, rfl, rfl⟩
  all_goals cases h

/-- Producer operations leave the engine and serve no byte. -/
theorem trace_producer {is : List Instr} (h : ∀ i ∈ is, i.agent = .producer) (s : State) :
    ∃ outs t, trace is s = some (outs, t) ∧ t.engine = s.engine ∧ outs.filterMap servedByte = [] := by
  induction is generalizing s with
  | nil => exact ⟨[], s, rfl, rfl, rfl⟩
  | cons i is ih =>
    obtain ⟨hi, his⟩ := List.forall_mem_cons.1 h
    obtain ⟨t, he, hengine, hout⟩ := exec_producer hi s
    obtain ⟨outs, u, hrun, hu, houts⟩ := ih his t
    exact ⟨t.out :: outs, u, trace_cons_some he hrun, hu.trans hengine, by simp [hout, houts]⟩

/-! ## The reads of one record at FIFO_POP (R95) -/

/-- The engine `e` within FIFO_POP, after `k` bytes of record `r` were served. -/
def Engine.atByte (e : Engine) (r : Record) (k : BytePos) : Engine :=
  { e with ptr := 0x05, subIndex := k, cacheRecord := r, cacheValid := true, cacheOffset := k }

/-- The engine `e` after all four bytes of record `r` were served. -/
def Engine.pastRecord (e : Engine) (r : Record) : Engine :=
  { e with ptr := 0x06, subIndex := 0, cacheRecord := r, cacheValid := false, cacheOffset := 0 }

/-- The first read at FIFO_POP takes the next record out of the ring and serves its type. -/
theorem exec_busRead_first {s : State} (hptr : s.engine.ptr = 0x05) (hsub : s.engine.subIndex = 0)
    (hv : s.engine.cacheValid = false) :
    ∃ t, exec .busRead s = .next t ∧ t.engine = s.engine.atByte (nextRecord s) 1 ∧ t.ring = s.ring.afterPop ∧
      t.out = .served (nextRecord s).type := by
  refine ⟨_, exec_busRead_next hptr hv, ?_, rfl, rfl⟩
  rw [afterEvent, Engine.advance_within _ (by simp [hptr, hsub])]
  simp [Engine.atByte, hptr, hsub]

/-- A read within the record serves the next byte of it. -/
theorem exec_busRead_within {s : State} {e : Engine} {r : Record} {k : BytePos} (hs : s.engine = e.atByte r k)
    (hk : k ≠ 3) :
    ∃ t, exec .busRead s = .next t ∧ t.engine = e.atByte r (k + 1) ∧ t.ring = s.ring ∧
      t.out = .served (recordByte r k) := by
  have hptr : s.engine.ptr = 0x05 := by rw [hs]; rfl
  have hwidth : k.toNat + 1 < 4 := by rcases bytePos_cases hk with rfl | rfl | rfl <;> decide
  obtain ⟨hmore, _⟩ := fifoPopRowPopsAndServes s 0
  refine ⟨_, (exec_busRead_fifoPop hptr).trans (hmore (by rw [hs]; rfl) (by rw [hs]; exact hk)), ?_, rfl, ?_⟩
  · rw [afterEvent, Engine.advance_within _ (by simpa [hs, Engine.atByte] using hwidth)]
    simp [hs, Engine.atByte]
  · simp [afterEvent, hs, Engine.atByte]

/-- The fourth read serves the last byte, ends the cache and goes on to the next address. -/
theorem exec_busRead_last {s : State} {e : Engine} {r : Record} (hs : s.engine = e.atByte r 3) :
    ∃ t, exec .busRead s = .next t ∧ t.engine = e.pastRecord r ∧ t.ring = s.ring ∧ t.out = .served r.timestampLow := by
  have hptr : s.engine.ptr = 0x05 := by rw [hs]; rfl
  obtain ⟨_, hlast, _⟩ := fifoPopRowPopsAndServes s 0
  refine ⟨_, (exec_busRead_fifoPop hptr).trans (hlast (by rw [hs]; rfl) (by rw [hs]; rfl)), ?_, rfl, ?_⟩
  · rw [afterEvent, Engine.advance_across _ (by simp [hs, Engine.atByte])]
    simp [hs, Engine.atByte, Engine.pastRecord]
  · simp [afterEvent, hs, Engine.atByte]

/-- A read and the producer operations after it: the byte read is served, and the engine stays as the read left it. -/
theorem trace_busRead_producer {ps : List Instr} (hps : ∀ i ∈ ps, i.agent = .producer) {s t : State} {b : Byte}
    (he : exec .busRead s = .next t) (hout : t.out = .served b) :
    ∃ outs u, trace (.busRead :: ps) s = some (outs, u) ∧ u.engine = t.engine ∧ outs.filterMap servedByte = [b] := by
  obtain ⟨outs, u, hrun, hu, houts⟩ := trace_producer hps t
  exact ⟨t.out :: outs, u, trace_cons_some he hrun, hu, by simp [hout, servedByte, houts]⟩

/-- Settles O50: the first read fixes the record, and the producer leaves the engine that holds it. -/
theorem fourReadsServeOneWholeRecord : Obligations.FourReadsServeOneWholeRecord := by
  intro s ps1 ps2 ps3 hptr hsub hv hps
  simp only [List.mem_append, or_imp, forall_and] at hps
  obtain ⟨⟨hps1, hps2⟩, hps3⟩ := hps
  obtain ⟨t1, he1, hengine1, _, hout1⟩ := exec_busRead_first hptr hsub hv
  obtain ⟨o1, u1, hrun1, hu1, hserved1⟩ := trace_busRead_producer hps1 he1 hout1
  obtain ⟨t2, he2, hengine2, _, hout2⟩ := exec_busRead_within (hu1.trans hengine1) (by decide)
  obtain ⟨o2, u2, hrun2, hu2, hserved2⟩ := trace_busRead_producer hps2 he2 hout2
  obtain ⟨t3, he3, hengine3, _, hout3⟩ := exec_busRead_within (hu2.trans hengine2) (by decide)
  obtain ⟨o3, u3, hrun3, hu3, hserved3⟩ := trace_busRead_producer hps3 he3 hout3
  obtain ⟨t4, he4, hengine4, _, hout4⟩ := exec_busRead_last (hu3.trans hengine3)
  refine ⟨_, t4, trace_append_some (trace_append_some (trace_append_some hrun1 hrun2) hrun3)
    (trace_cons_some he4 (trace_nil t4)), ?_, ?_⟩
  · simp [hserved1, hserved2, hserved3, hout4, servedByte, recordBytes, recordByte]
  · rw [hengine4, Engine.pastRecord, ← hsub]

/-! ## A transaction that reads FIFO_POP -/

/-- The bytes of a record from position `k` on. -/
theorem recordBytes_drop (r : Record) (k : BytePos) :
    (recordBytes r).drop k.toNat = recordByte r k :: (recordBytes r).drop (k.toNat + 1) := by
  by_cases hk : k = 3
  · subst hk
    rfl
  · rcases bytePos_cases hk with rfl | rfl | rfl <;> rfl

/-- Reads within the record serve its bytes from `k` on and leave the ring. -/
theorem trace_busReads {e : Engine} {r : Record} (n : Nat) {k : BytePos} {s : State} (hs : s.engine = e.atByte r k)
    (hn : k.toNat + n ≤ 4) :
    ∃ outs t, trace (List.replicate n .busRead) s = some (outs, t) ∧ t.ring = s.ring ∧
      outs.filterMap servedByte = ((recordBytes r).drop k.toNat).take n := by
  induction n generalizing k s with
  | zero => exact ⟨[], s, rfl, rfl, by simp⟩
  | succ n ih =>
    rw [recordBytes_drop, List.take_succ_cons]
    by_cases hk : k = 3
    · subst hk
      obtain rfl : n = 0 := by
        change 3 + (n + 1) ≤ 4 at hn
        omega
      obtain ⟨t, he, _, hring, hout⟩ := exec_busRead_last hs
      exact ⟨_, t, trace_cons_some he (trace_nil t), hring, by simp [hout, servedByte, recordByte]⟩
    · obtain ⟨t, he, hengine, hring, hout⟩ := exec_busRead_within hs hk
      have hk1 : (k + 1).toNat = k.toNat + 1 := by rcases bytePos_cases hk with rfl | rfl | rfl <;> rfl
      obtain ⟨outs, u, hrun, hu, houts⟩ := ih hengine (by omega)
      rw [hk1] at houts
      exact ⟨_, u, trace_cons_some he hrun, hu.trans hring, by simp [hout, servedByte, houts]⟩

/-- READREG of one to four bytes of FIFO_POP serves the first bytes of the next record, takes it out of the ring and leaves
neither a pointer nor a cache. -/
theorem trace_readReg_fifoPop {s : State} {n : Nat} (hpv : s.engine.pointerValid = false)
    (hcv : s.engine.cacheValid = false) (h1 : 1 ≤ n) (h4 : n ≤ 4) :
    ∃ outs t, trace (pseudoReadReg 0x05 n) s = some (outs, t) ∧ t.ring = s.ring.afterPop ∧
      t.engine.pointerValid = false ∧ t.engine.cacheValid = false ∧
      outs.filterMap servedByte = (recordBytes (nextRecord s)).take n := by
  obtain ⟨m, rfl⟩ : ∃ m, n = m + 1 := ⟨n - 1, by omega⟩
  obtain ⟨t, he, hengine, hring, hout⟩ : ∃ t,
      exec .busRead { s with engine := s.engine.latch 0x05, event := none, out := .nothing } = .next t ∧
      t.engine = (s.engine.latch 0x05).atByte (nextRecord s) 1 ∧ t.ring = s.ring.afterPop ∧
      t.out = .served (nextRecord s).type := exec_busRead_first rfl rfl hcv
  obtain ⟨outs, u, hrun, hu, houts⟩ := trace_busReads m hengine (by change 1 + m ≤ 4; omega)
  have hstop := trace_cons_some (exec_ending (.inl rfl) u) (trace_nil (stopTransaction u))
  refine ⟨_, stopTransaction u, trace_append_some (trace_cons_some (execBusData_pointer 0x05 s hpv)
    (trace_cons_some he hrun)) hstop, hu.trans hring, rfl, rfl, ?_⟩
  simp [hout, houts, recordBytes, List.filterMap_cons, servedByte]

theorem Ring.Inv.afterPop {r : Ring} (h : r.Inv) : r.afterPop.Inv := by
  unfold Ring.afterPop
  split
  · exact h
  · exact .drop r

theorem nextRecord_of_queue {s : State} {r : Record} {q : List Record} (h : s.ring.queue = r :: q) :
    nextRecord s = r := by
  rw [nextRecord, h]

/-- Settles O51: each of the two transactions takes one record out of the ring and serves from its first byte. -/
theorem partialPopLosesTheRecord : Obligations.PartialPopLosesTheRecord := by
  intro s a b q k hs hpv hcv hqueue h1 h4
  have hinv := ((State.inv_iff s).1 hs).1
  obtain ⟨o1, t, hrun1, hring1, hpv1, hcv1, hserved1⟩ := trace_readReg_fifoPop hpv hcv h1 h4
  obtain ⟨o2, u, hrun2, hring2, _, _, hserved2⟩ := trace_readReg_fifoPop (n := 4) hpv1 hcv1 (by decide) (by decide)
  have hqueue1 : t.ring.queue = b :: q := by rw [hring1, Ring.afterPop_queue hinv, hqueue, List.tail_cons]
  have hqueue2 : u.ring.queue = q := by
    rw [hring2, Ring.afterPop_queue (hring1 ▸ hinv.afterPop), hqueue1, List.tail_cons]
  refine ⟨_, u, trace_append_some hrun1 hrun2, ?_, hqueue2⟩
  rw [List.filterMap_append, hserved1, hserved2, nextRecord_of_queue hqueue, nextRecord_of_queue hqueue1]
  rfl

/-! ## Transactions that write (R84) -/

/-- The outputs of the bytes stored one by one, the first at the location of `e`, each next one where the engine has
advanced to. -/
def outputsOfBytes : List Byte → Engine → Bank → List Output
  | [], _, _ => []
  | b :: bs, e, bank =>
    (if e.ptr = 0x08 ∧ e.subIndex = 2 then ledUpdateOf (ledAfter bank.ledState 2 b) else .nothing) ::
      outputsOfBytes bs e.advance (bankAfterWrite e.ptr e.subIndex b bank)

/-- Writes after a pointer store each byte where the engine has advanced to, and the STOP keeps what was stored. -/
theorem trace_writes_stop (bytes : List Byte) {s : State} (hv : s.engine.pointerValid = true)
    (hk : s.engine.subIndex.toNat < width s.engine.ptr) :
    ∃ t, trace (bytes.map .busData ++ [.busStop]) s = some (outputsOfBytes bytes s.engine s.bank ++ [.nothing], t) ∧
      t.bank = bankAfterBytes bytes s.engine s.bank ∧ t.ring = s.ring ∧ t.engine.pointerValid = false := by
  induction bytes generalizing s with
  | nil => exact ⟨stopTransaction s, trace_cons_some (exec_ending (.inl rfl) s) (trace_nil _), rfl, rfl, rfl⟩
  | cons b bs ih =>
    obtain ⟨t, hrun, hstored⟩ := ih
      (s := afterEvent { s with bank := bankAfterWrite s.engine.ptr s.engine.subIndex b s.bank } (writeOutput b s))
      ((Engine.advance_pointerValid s.engine).trans hv) s.engine.advance_in_width
    exact ⟨t, trace_cons_some (exec_busData_write b hv hk) hrun, hstored⟩

/-- A write transaction, its outputs and what it stores. -/
theorem trace_writeReg {s : State} (hpv : s.engine.pointerValid = false) (p : Byte) (bytes : List Byte) :
    ∃ t, trace (pseudoWriteReg p bytes) s =
        some (.nothing :: (outputsOfBytes bytes (s.engine.latch p) s.bank ++ [.nothing]), t) ∧
      t.bank = bankAfterBytes bytes (s.engine.latch p) s.bank ∧ t.ring = s.ring ∧ t.engine.pointerValid = false := by
  obtain ⟨t, hrun, hstored⟩ := trace_writes_stop bytes
    (s := { s with engine := s.engine.latch p, event := none, out := .nothing }) rfl (width_pos p)
  exact ⟨t, trace_cons_some (execBusData_pointer p s hpv) hrun, hstored⟩

/-- Settles O56: the first byte latches byte 0 of the pointed register, and the rest are writes. -/
theorem writeTransactionStoresEveryByte : Obligations.WriteTransactionStoresEveryByte := by
  intro s p bytes hpv
  obtain ⟨t, hrun, hstored⟩ := trace_writeReg hpv p bytes
  exact ⟨_, t, hrun, hstored⟩

/-- Settles O52: the bytes go to LED bytes 0, 1 and 2 in turn, and only the write at 2 has an output. -/
theorem thirdLedByteEmitsOneUpdate : Obligations.ThirdLedByteEmitsOneUpdate := by
  intro s x y z hpv
  refine ⟨?three, ?two⟩
  case three =>
    obtain ⟨t, hrun, hbank, _⟩ := trace_writeReg hpv 0x08 [x, y, z]
    exact ⟨t, hrun, hbank⟩
  case two =>
    obtain ⟨t, hrun, hbank, _⟩ := trace_writeReg hpv 0x08 [x, y]
    exact ⟨t, hrun, hbank⟩

/-! ## The clock between two reads (R49) -/

/-- BUS_READ at CLOCK_HIGH serves the byte of the clock at the sub-index. -/
theorem exec_busRead_clockHigh {s : State} {k : BytePos} (hptr : s.engine.ptr = 0x0A) (hsub : s.engine.subIndex = k) :
    exec .busRead s = .next (afterEvent s (.served (wireByte 0x0A (clockHighBytes s.bank) k))) := by
  have hrow : decodeReg s.engine.ptr = .regClockHigh := by rw [hptr]; decide
  rw [(byteEventRunsThePointedRow s 0).1, hrow, exec_regClockHigh_read hsub]

/-- Settles O53: each read serves its byte of the clock as it then stands. -/
theorem clockHighReadCanTear : Obligations.ClockHighReadCanTear := by
  intro s new hpv
  exact ⟨_, trace_cons_some (execBusData_pointer 0x0A s hpv)
    (trace_cons_some (exec_busRead_clockHigh (k := 0) rfl rfl)
      (trace_cons_some (exec_setTshigh new _)
        (trace_cons_some (exec_busRead_clockHigh (k := 1) rfl rfl) (trace_nil _))))⟩

end Sys2Proof.Machine
end
